-- ==== Sys2Proof/Word.lean ====
section
/-! DEFINITION. The word types of the block (R11: a command byte and a register address are 8 bits, a register
value is 16 bits; R91: a request is one 32-bit word). -/

namespace Sys2Proof

/-- A byte of the stream, of a command frame, or a register address (R11). -/
abbrev Byte := BitVec 8

/-- A sensor register value, "16-bit unsigned" (R11). -/
abbrev Half := BitVec 16

/-- A host register, a request word or a command word (R19, R91, R100). -/
abbrev Word := BitVec 32

end Sys2Proof
end

