-- ==== Sys2Proof/Syntax.lean ====
section
/-! DEFINITION. The instructions: one constructor for each of the 40 rows of spec/opcode_table.json. The 16 request
rows (format OPREQ, R91 to R95) carry every bit of the request word, the ignored ones too (R92), because the block
keeps the whole word in OPREQ (R33). The 23 frame rows (format CMD, R97, R100) are the commands the framer sends. The
row READ_RESPONSE (format RSP4, R99) is the 4-byte answer the parser takes. -/

namespace Sys2Proof

/-- The three formats of the opcode table: a request word of the host, a command word of the sequencer, a response of
the sensor. -/
inductive Format where
  | opreq | cmd | rsp4
deriving DecidableEq, Repr

/-- A Command, "an ordered tuple (expectedResponseLength, payloadBytes)" (R17). The third payload byte is always TERM
and is no operand (R93), so it is not stored. -/
structure Command where
  len : Byte
  b1 : Byte
  b2 : Byte
deriving DecidableEq, Repr

/-- The instructions. In a request, `hi` (or `lo`) and `f` hold the bits that the operation ignores (R92): `hi` those
of [31:8] or [31:16], `f` bit 4. -/
inductive Instr where
  /-- An illegal request word, whole (R101): OP = 0, or RSV ≠ 0, or SEND_COMMANDS with A > 8. -/
  | reservedOp0 (w : Word)
  | openStream (hi : BitVec 24) (f : BitVec 1)
  | closeStream (hi : BitVec 24) (f : BitVec 1)
  | sendCommand (len : Byte) (b2 : Byte) (b1 : Byte) (f : BitVec 1)
  | sendCommands (hi : Half) (n : Byte) (f : BitVec 1)
  | resetSensor (hi : BitVec 24) (f : BitVec 1)
  | readRegisterWord (hi : Half) (address : Byte) (window : BitVec 1)
  | detectIdentity (hi : BitVec 24) (f : BitVec 1)
  | setUartAutoStart (hi : BitVec 24) (f : BitVec 1)
  | flashBackup (hi : BitVec 24) (f : BitVec 1)
  | flashTest (hi : BitVec 24) (f : BitVec 1)
  | waitUntilReady (timeout : Half) (lo : Byte) (f : BitVec 1)
  | softwareReset (hi : BitVec 24) (f : BitVec 1)
  | exitAutoMode (hi : BitVec 24) (persist : BitVec 1)
  | fullReset (hi : BitVec 24) (persist : BitVec 1)
  | configure (hi : BitVec 24) (f : BitVec 1)
  | spell
  | winsel0
  | winsel1
  | wrUartCtrlOn
  | wrUartCtrlOff
  | wrGlobFlashBackup
  | wrGlobSwReset
  | wrModeExit
  | wrMscFlashTest
  | rdModeMsc
  | rdDiagStat1
  | rdGlobCmd
  | rdProd0
  | rdProd1
  | rdProd2
  | rdProd3
  | rdSer0
  | rdSer1
  | rdSer2
  | rdSer3
  | writeFrame (a : Byte) (v : Byte)
  | readFrame (a : Byte)
  | rawFrame (len : Byte) (b1 : Byte) (b2 : Byte)
  | readResponse (echoedAddr : Byte) (msb : Byte) (lsb : Byte) (terminator : Byte)
deriving DecidableEq, Repr

end Sys2Proof
end

