-- ==== Sys2Proof/WellFormed.lean ====
section
/-! DEFINITION. Which terms of Instr an encoding of the spec can stand for. A request is checked by the legality rule
R101. A generic frame row is well formed only where no more specific row of the opcode table matches its word, so that
every command word has one instruction. -/

namespace Sys2Proof

/-- The count of SEND_COMMANDS is at most MAX_CMDS = 8 (R9, R101). -/
def legalCount (n : Byte) : Bool := decide (n.toNat ≤ 8)

/-- An illegal request word (R101): OP = 0x0, or RSV ≠ 0, or OP = SEND_COMMANDS with A > MAX_CMDS. -/
def illegalRequest (w : Word) : Bool :=
  w.extractLsb' 0 4 == 0#4 || w.extractLsb' 5 3 != 0#3 ||
    (w.extractLsb' 0 4 == 4#4 && !legalCount (w.extractLsb' 8 8))

/-- The (address, value) pairs of the write frames that R100 names. -/
def namedWrites : List (Byte × Byte) :=
  [(0xFF, 0xFF), (0xFE, 0x00), (0xFE, 0x01), (0x88, 0x03), (0x88, 0x00), (0x8A, 0x08), (0x8A, 0x80),
   (0x83, 0x02), (0x83, 0x08)]

/-- The addresses of the read frames that R100 names. -/
def namedReads : List Byte :=
  [0x02, 0x04, 0x0A, 0x6A, 0x6C, 0x6E, 0x70, 0x74, 0x76, 0x78, 0x7A]

/-- Well-formed instructions: the operands of each constructor that its encoding admits. -/
def Instr.wellFormed : Instr → Bool
  | .reservedOp0 w => illegalRequest w
  | .sendCommands _ n _ => legalCount n
  | .writeFrame a v => !namedWrites.contains (a, v)
  | .readFrame a => !namedReads.contains a
  | .rawFrame len _ b2 => len != 0x00 && !(len == 0x04 && b2 == 0x00)
  | .openStream _ _ => true
  | .closeStream _ _ => true
  | .sendCommand _ _ _ _ => true
  | .resetSensor _ _ => true
  | .readRegisterWord _ _ _ => true
  | .detectIdentity _ _ => true
  | .setUartAutoStart _ _ => true
  | .flashBackup _ _ => true
  | .flashTest _ _ => true
  | .waitUntilReady _ _ _ => true
  | .softwareReset _ _ => true
  | .exitAutoMode _ _ => true
  | .fullReset _ _ => true
  | .configure _ _ => true
  | .spell => true
  | .winsel0 => true
  | .winsel1 => true
  | .wrUartCtrlOn => true
  | .wrUartCtrlOff => true
  | .wrGlobFlashBackup => true
  | .wrGlobSwReset => true
  | .wrModeExit => true
  | .wrMscFlashTest => true
  | .rdModeMsc => true
  | .rdDiagStat1 => true
  | .rdGlobCmd => true
  | .rdProd0 => true
  | .rdProd1 => true
  | .rdProd2 => true
  | .rdProd3 => true
  | .rdSer0 => true
  | .rdSer1 => true
  | .rdSer2 => true
  | .rdSer3 => true
  | .readResponse _ _ _ _ => true

end Sys2Proof
end

