-- ==== Sys2Proof/Decode.lean ====
section
/-! DEFINITION. The decoder of the three formats, total on any word and on any bytes, the encoder, the word the host's
questions use (decodeTableWord), and the request syntax of R106 and R107. -/

namespace Sys2Proof

/-! ## Fields of a request word (R91) -/

/-- OP, bits [3:0]. -/
def opField (w : Word) : BitVec 4 := w.extractLsb' 0 4
/-- F, bit 4. -/
def fField (w : Word) : BitVec 1 := w.extractLsb' 4 1
/-- A, bits [15:8]. -/
def aField (w : Word) : Byte := w.extractLsb' 8 8
/-- D, bits [23:16]. -/
def dField (w : Word) : Byte := w.extractLsb' 16 8
/-- L, bits [31:24]. -/
def lField (w : Word) : Byte := w.extractLsb' 24 8
/-- T, bits [31:16], which overlays D and L. -/
def tField (w : Word) : Half := w.extractLsb' 16 16
/-- Bits [31:8], for the operations that ignore A, D and L. -/
def hiField (w : Word) : BitVec 24 := w.extractLsb' 8 24

/-! ## Decoding -/

/-- The request that an OPREQ word stands for (R91, R94, R95). Every word stands for one: an illegal word (R101) is the
reserved request, which is refused when it runs (R102). -/
def decodeRequest (w : Word) : Instr :=
  if illegalRequest w then .reservedOp0 w
  else match (opField w).toNat with
    | 1 => .openStream (hiField w) (fField w)
    | 2 => .closeStream (hiField w) (fField w)
    | 3 => .sendCommand (lField w) (dField w) (aField w) (fField w)
    | 4 => .sendCommands (tField w) (aField w) (fField w)
    | 5 => .resetSensor (hiField w) (fField w)
    | 6 => .readRegisterWord (tField w) (aField w) (fField w)
    | 7 => .detectIdentity (hiField w) (fField w)
    | 8 => .setUartAutoStart (hiField w) (fField w)
    | 9 => .flashBackup (hiField w) (fField w)
    | 10 => .flashTest (hiField w) (fField w)
    | 11 => .waitUntilReady (tField w) (aField w) (fField w)
    | 12 => .softwareReset (hiField w) (fField w)
    | 13 => .exitAutoMode (hiField w) (fField w)
    | 14 => .fullReset (hiField w) (fField w)
    | 15 => .configure (hiField w) (fField w)
    | _ => .reservedOp0 w

/-- The named frames of R100, each with its Command. -/
def frameCatalogue : List (Command × Instr) :=
  [(⟨0x00, 0xFF, 0xFF⟩, .spell), (⟨0x00, 0xFE, 0x00⟩, .winsel0), (⟨0x00, 0xFE, 0x01⟩, .winsel1),
   (⟨0x00, 0x88, 0x03⟩, .wrUartCtrlOn), (⟨0x00, 0x88, 0x00⟩, .wrUartCtrlOff),
   (⟨0x00, 0x8A, 0x08⟩, .wrGlobFlashBackup), (⟨0x00, 0x8A, 0x80⟩, .wrGlobSwReset),
   (⟨0x00, 0x83, 0x02⟩, .wrModeExit), (⟨0x00, 0x83, 0x08⟩, .wrMscFlashTest),
   (⟨0x04, 0x02, 0x00⟩, .rdModeMsc), (⟨0x04, 0x04, 0x00⟩, .rdDiagStat1), (⟨0x04, 0x0A, 0x00⟩, .rdGlobCmd),
   (⟨0x04, 0x6A, 0x00⟩, .rdProd0), (⟨0x04, 0x6C, 0x00⟩, .rdProd1), (⟨0x04, 0x6E, 0x00⟩, .rdProd2),
   (⟨0x04, 0x70, 0x00⟩, .rdProd3), (⟨0x04, 0x74, 0x00⟩, .rdSer0), (⟨0x04, 0x76, 0x00⟩, .rdSer1),
   (⟨0x04, 0x78, 0x00⟩, .rdSer2), (⟨0x04, 0x7A, 0x00⟩, .rdSer3)]

/-- The row of the opcode table that a Command matches: a named frame, else the generic write frame (LEN = 0), else
the generic read frame (LEN = 4 and byte 2 = 0x00), else a raw frame (R97, R100). -/
def commandInstr (c : Command) : Instr :=
  match frameCatalogue.find? (fun row => row.1 == c) with
  | some row => row.2
  | none =>
    if c.len = 0x00 then .writeFrame c.b1 c.b2
    else if c.len = 0x04 ∧ c.b2 = 0x00 then .readFrame c.b1
    else .rawFrame c.len c.b1 c.b2

/-- The Command in a command word `LEN << 24 | B1 << 16 | B2 << 8 | TERM` (R100). -/
def wordCommand (w : Word) : Command := ⟨w.extractLsb' 24 8, w.extractLsb' 16 8, w.extractLsb' 8 8⟩

/-- Why bytes or a word stand for no instruction of a format. -/
inductive DecodeReject where
  /-- Fewer than four bytes. -/
  | tooShort
  /-- A command word whose low byte is not TERM = 0x0D (R93, R100). -/
  | noTerminator
deriving DecidableEq, Repr

/-- The instruction in a word of a given format. A response word holds its bytes in arrival order, the first in bits
[31:24] (the opcode table's row READ_RESPONSE). -/
def decodeAs (fmt : Format) (w : Word) : Except DecodeReject Instr :=
  match fmt with
  | .opreq => .ok (decodeRequest w)
  | .cmd => if w.extractLsb' 0 8 = 0x0D#8 then .ok (commandInstr (wordCommand w)) else .error .noTerminator
  | .rsp4 => .ok (.readResponse (w.extractLsb' 24 8) (w.extractLsb' 16 8) (w.extractLsb' 8 8) (w.extractLsb' 0 8))

/-- Four bytes as a word, little-endian (R19). -/
def wordOfBytes (b0 b1 b2 b3 : Byte) : Word := b3 ++ b2 ++ b1 ++ b0

/-- Decoding of bytes as they are stored: a request or a command word is little-endian (R19), the bytes of a response
stand in arrival order (R99). Bytes after the fourth are left to the next word. -/
def decodeBytes (fmt : Format) (bs : List Byte) : Except DecodeReject Instr :=
  match bs with
  | b0 :: b1 :: b2 :: b3 :: _ =>
    match fmt with
    | .rsp4 => .ok (.readResponse b0 b1 b2 b3)
    | .opreq => decodeAs .opreq (wordOfBytes b0 b1 b2 b3)
    | .cmd => decodeAs .cmd (wordOfBytes b0 b1 b2 b3)
  | _ => .error .tooShort

/-! ## Encoding -/

/-- The format of an instruction. -/
def Instr.format : Instr → Format
  | .reservedOp0 _ => .opreq
  | .openStream _ _ => .opreq
  | .closeStream _ _ => .opreq
  | .sendCommand _ _ _ _ => .opreq
  | .sendCommands _ _ _ => .opreq
  | .resetSensor _ _ => .opreq
  | .readRegisterWord _ _ _ => .opreq
  | .detectIdentity _ _ => .opreq
  | .setUartAutoStart _ _ => .opreq
  | .flashBackup _ _ => .opreq
  | .flashTest _ _ => .opreq
  | .waitUntilReady _ _ _ => .opreq
  | .softwareReset _ _ => .opreq
  | .exitAutoMode _ _ => .opreq
  | .fullReset _ _ => .opreq
  | .configure _ _ => .opreq
  | .spell => .cmd
  | .winsel0 => .cmd
  | .winsel1 => .cmd
  | .wrUartCtrlOn => .cmd
  | .wrUartCtrlOff => .cmd
  | .wrGlobFlashBackup => .cmd
  | .wrGlobSwReset => .cmd
  | .wrModeExit => .cmd
  | .wrMscFlashTest => .cmd
  | .rdModeMsc => .cmd
  | .rdDiagStat1 => .cmd
  | .rdGlobCmd => .cmd
  | .rdProd0 => .cmd
  | .rdProd1 => .cmd
  | .rdProd2 => .cmd
  | .rdProd3 => .cmd
  | .rdSer0 => .cmd
  | .rdSer1 => .cmd
  | .rdSer2 => .cmd
  | .rdSer3 => .cmd
  | .writeFrame _ _ => .cmd
  | .readFrame _ => .cmd
  | .rawFrame _ _ _ => .cmd
  | .readResponse _ _ _ _ => .rsp4

/-- A request word with operation code `op` whose bits [31:8] are `hi` and bit 4 is `f`; RSV is 0 (R91). -/
def requestWord (hi : BitVec 24) (f : BitVec 1) (op : BitVec 4) : Word := hi ++ 0#3 ++ f ++ op

/-- The command word of a Command (R100). -/
def commandWord (c : Command) : Word := c.len ++ c.b1 ++ c.b2 ++ 0x0D#8

/-- The word of an instruction (R91, R94, R95, R99, R100). -/
def encode : Instr → Word
  | .reservedOp0 w => w
  | .openStream hi f => requestWord hi f 1#4
  | .closeStream hi f => requestWord hi f 2#4
  | .sendCommand len b2 b1 f => requestWord (len ++ b2 ++ b1) f 3#4
  | .sendCommands hi n f => requestWord (hi ++ n) f 4#4
  | .resetSensor hi f => requestWord hi f 5#4
  | .readRegisterWord hi a window => requestWord (hi ++ a) window 6#4
  | .detectIdentity hi f => requestWord hi f 7#4
  | .setUartAutoStart hi f => requestWord hi f 8#4
  | .flashBackup hi f => requestWord hi f 9#4
  | .flashTest hi f => requestWord hi f 10#4
  | .waitUntilReady t lo f => requestWord (t ++ lo) f 11#4
  | .softwareReset hi f => requestWord hi f 12#4
  | .exitAutoMode hi persist => requestWord hi persist 13#4
  | .fullReset hi persist => requestWord hi persist 14#4
  | .configure hi f => requestWord hi f 15#4
  | .spell => commandWord ⟨0x00, 0xFF, 0xFF⟩
  | .winsel0 => commandWord ⟨0x00, 0xFE, 0x00⟩
  | .winsel1 => commandWord ⟨0x00, 0xFE, 0x01⟩
  | .wrUartCtrlOn => commandWord ⟨0x00, 0x88, 0x03⟩
  | .wrUartCtrlOff => commandWord ⟨0x00, 0x88, 0x00⟩
  | .wrGlobFlashBackup => commandWord ⟨0x00, 0x8A, 0x08⟩
  | .wrGlobSwReset => commandWord ⟨0x00, 0x8A, 0x80⟩
  | .wrModeExit => commandWord ⟨0x00, 0x83, 0x02⟩
  | .wrMscFlashTest => commandWord ⟨0x00, 0x83, 0x08⟩
  | .rdModeMsc => commandWord ⟨0x04, 0x02, 0x00⟩
  | .rdDiagStat1 => commandWord ⟨0x04, 0x04, 0x00⟩
  | .rdGlobCmd => commandWord ⟨0x04, 0x0A, 0x00⟩
  | .rdProd0 => commandWord ⟨0x04, 0x6A, 0x00⟩
  | .rdProd1 => commandWord ⟨0x04, 0x6C, 0x00⟩
  | .rdProd2 => commandWord ⟨0x04, 0x6E, 0x00⟩
  | .rdProd3 => commandWord ⟨0x04, 0x70, 0x00⟩
  | .rdSer0 => commandWord ⟨0x04, 0x74, 0x00⟩
  | .rdSer1 => commandWord ⟨0x04, 0x76, 0x00⟩
  | .rdSer2 => commandWord ⟨0x04, 0x78, 0x00⟩
  | .rdSer3 => commandWord ⟨0x04, 0x7A, 0x00⟩
  | .writeFrame a v => commandWord ⟨0x00, a, v⟩
  | .readFrame a => commandWord ⟨0x04, a, 0x00⟩
  | .rawFrame len b1 b2 => commandWord ⟨len, b1, b2⟩
  | .readResponse e m l t => e ++ m ++ l ++ t

/-! ## The word the opcode table numbers -/

/-- In which format a bare word of the opcode table is read, where nothing else says it: a word whose low byte is TERM
and whose other bytes are not all 0 as a command word, any other as a request. DESIGN CHOICE (log entry 2): the three
formats share the 32-bit words, and the block tells them apart by where a word comes from. -/
def tableFormat (w : Word) : Format :=
  if w.extractLsb' 0 8 = 0x0D#8 ∧ w.extractLsb' 8 24 ≠ 0#24 then .cmd else .opreq

/-- The instruction that the decoder reads from the table word `w` (every row of the table is 32 bits). -/
def decodeTableWord (nbits w : Nat) : Option Instr :=
  if nbits ≤ 32 ∧ w < 2 ^ 32 then (decodeAs (tableFormat (BitVec.ofNat 32 w)) (BitVec.ofNat 32 w)).toOption else none

/-! ## Requests as a host writes them (R106, R107) -/

/-- The requests of the textual syntax of R106 and the pseudo-instructions of R107. `fullReset none` is the line with
no word after `full_reset`. -/
inductive Request where
  | openReq | closeReq
  | send (len b1 b2 : Byte)
  | sendm (n : Byte)
  | resetSensor
  | readWord (addr : Byte) (window : BitVec 1)
  | detectIdentity | setUartAutoStart | flashBackup | flashTest
  | waitUntilReady (ms : Half)
  | softwareReset
  | exitAutoMode (persist : Bool)
  | fullReset (persist : Option Bool)
  | configure
  | selectWindow (w : Byte)
  | writeReg (a v : Byte)
  | readRaw (a : Byte)
  | spell
deriving DecidableEq, Repr

/-- The request word of `send len, b1, b2` (R106). -/
def sendWord (c : Command) : Word := requestWord (c.len ++ c.b2 ++ c.b1) 0#1 3#4

/-- The word of a line of the request syntax: the table of R106, and R107 for the pseudo-instructions. -/
def Request.word : Request → Word
  | .openReq => requestWord 0#24 0#1 1#4
  | .closeReq => requestWord 0#24 0#1 2#4
  | .send len b1 b2 => sendWord ⟨len, b1, b2⟩
  | .sendm n => requestWord (0#16 ++ n) 0#1 4#4
  | .resetSensor => requestWord 0#24 0#1 5#4
  | .readWord addr window => requestWord (0#16 ++ addr) window 6#4
  | .detectIdentity => requestWord 0#24 0#1 7#4
  | .setUartAutoStart => requestWord 0#24 0#1 8#4
  | .flashBackup => requestWord 0#24 0#1 9#4
  | .flashTest => requestWord 0#24 0#1 10#4
  | .waitUntilReady ms => requestWord (ms ++ 0#8) 0#1 11#4
  | .softwareReset => requestWord 0#24 0#1 12#4
  | .exitAutoMode persist => requestWord 0#24 (BitVec.ofBool persist) 13#4
  | .fullReset persist => requestWord 0#24 (BitVec.ofBool (persist.getD true)) 14#4
  | .configure => requestWord 0#24 0#1 15#4
  | .selectWindow w => sendWord ⟨0x00, 0xFE, w⟩
  | .writeReg a v => sendWord ⟨0x00, a, v⟩
  | .readRaw a => sendWord ⟨0x04, a, 0x00⟩
  | .spell => sendWord ⟨0x00, 0xFF, 0xFF⟩

end Sys2Proof
end

