-- ==== Sys2Proof/Config.lean ====
section
/-! DEFINITION. The implementation parameters of R9: the constants the source gives, the parameters the model takes as
an argument (`Params`, with the defaults of R9), and the draws (what the platform, the sensor and the clock do at one
step of the block). -/

namespace Sys2Proof

/-! ## Constants of the source (R9, R10) -/

/-- The terminator of every command frame. -/
def term : Byte := 0x0D
/-- Address byte of the window-select frame. -/
def winselAddr : Byte := 0xFE
/-- First and second byte of the reset spell. -/
def spellByte : Byte := 0xFF
/-- Number of reset spell frames. -/
def spellRepeat : Nat := 3
/-- Expected response length of a register read. -/
def readLen : Byte := 0x04
/-- Default per-read timeout, in ms. -/
def tRead : Word := 3000#32
/-- Default baud rate. -/
def baudDefault : Word := 460800#32
/-- The advisory baud rates (R30); the block does not check them. -/
def advisoryBauds : List Word := [230400#32, 460800#32, 921600#32]
/-- Settling delay after the reset spell, in ms. -/
def tSettle : Nat := 100
/-- Poll interval of flashBackup and flashTest, in ms. -/
def tFlashPoll : Nat := 100
/-- Poll bound of flashBackup and flashTest, in ms. -/
def tFlashBound : Nat := 5000
/-- Sleep between waitUntilReady attempts, in ms. -/
def tReadyPoll : Nat := 50
/-- waitUntilReady bound after a successful flashTest, in ms. -/
def tReadyFt : Nat := 2000
/-- waitUntilReady bound after SW_RESET, in ms. -/
def tReadySwrst : Nat := 7000
/-- Wait between the mode-exit write and the MODE_CTRL read, in ms. -/
def tModeExit : Nat := 50
/-- Sleep after a successful fullReset, in ms. -/
def tStabilize : Nat := 800
/-- Entries of the command list. -/
def maxCmds : Nat := 8
/-- Capacity of the response buffer RESP, in bytes (255 × MAX_CMDS). -/
def respCap : Nat := 2040
/-- Capacity of an identity string register, in bytes. -/
def idCap : Nat := 16

/-! ## Sensor register addresses and values (R10, R43 to R49) -/

/-- UART_CTRL, window 1, write (R43). -/
def uartCtrl : Byte := 0x88
/-- UART_AUTO and AUTO_START, the value setUartAutoStart writes (R43). -/
def uartAutoOn : Byte := 0x03
/-- GLOB_CMD, window 1, write (R44). -/
def globCmdWrite : Byte := 0x8A
/-- GLOB_CMD.FLASH_BACKUP as written (R44). -/
def flashBackupValue : Byte := 0x08
/-- GLOB_CMD.SW_RESET as written (R44). -/
def swResetValue : Byte := 0x80
/-- GLOB_CMD, window 1, read (R45). -/
def globCmdRead : Byte := 0x0A
/-- GLOB_CMD bit 3: flash backup still running (R45). -/
def backupRunning : Half := 0x0008
/-- GLOB_CMD bit 10: sensor not ready (R45). -/
def notReady : Half := 0x0400
/-- MODE_CTRL (window 0) and MSC_CTRL (window 1), write (R46, R47). -/
def modeMscWrite : Byte := 0x83
/-- The MODE_CTRL request to leave Auto Mode (R46). -/
def modeExitValue : Byte := 0x02
/-- MSC_CTRL.FLASH_TEST as written (R47). -/
def flashTestValue : Byte := 0x08
/-- MODE_CTRL (window 0) and MSC_CTRL (window 1), read (R46, R47). -/
def modeMscRead : Byte := 0x02
/-- MODE_CTRL bit 10: configuration mode reached (R46). -/
def configMode : Half := 0x0400
/-- MSC_CTRL bit 10: flash test still running (R47). -/
def testRunning : Half := 0x0400
/-- DIAG_STAT1, window 0, read (R48). -/
def diagStat1 : Byte := 0x04
/-- DIAG_STAT1 bit 0, FLASH_BU_ERR (R48). -/
def flashBuErr : Half := 0x0001
/-- DIAG_STAT1 bit 2, FLASH_ERR (R48). -/
def flashErr : Half := 0x0004
/-- Product ID words, window 1 (R49, R182). -/
def productAddrs : List Byte := [0x6A, 0x6C, 0x6E, 0x70]
/-- Serial number words, window 1 (R49, R182). -/
def serialAddrs : List Byte := [0x74, 0x76, 0x78, 0x7A]

/-! ## Parameters -/

/-- `NONASCII`: what becomes of identity bytes ≥ 0x80 (R9, R184, I16). -/
inductive NonAscii where
  | keep | drop | reject
deriving DecidableEq, Repr

/-- `RX_OVERFLOW`: what the platform does with a byte that meets a full receive FIFO (R37, I11). -/
inductive RxOverflow where
  /-- The arriving byte is lost. -/
  | dropNewest
  /-- The oldest byte of the FIFO is lost. -/
  | dropOldest
  /-- The sender waits: the byte enters the FIFO when there is room. -/
  | stall
deriving DecidableEq, Repr

/-- Parity of the line format (I3). -/
inductive Parity where
  | noParity | even | odd
deriving DecidableEq, Repr

/-- `LINE_FORMAT`: the UART character format of the platform stream (R9, I3). -/
structure LineFormat where
  dataBits : Nat
  parity : Parity
  stopBits : Nat
deriving DecidableEq, Repr

/-- The parameters of R9 that are decisions or OPEN and fixed for one machine. The model takes them as an argument:
they stand in State, and no step changes them. -/
structure Params where
  /-- READ_PAD, the second byte of a read frame (R98, I1). -/
  readPad : Byte
  /-- WS_SET, the bytes trimmed from both ends of an identity string (R184, I2). -/
  wsSet : List Byte
  nonAscii : NonAscii
  /-- ALIAS_TABLE, raw product-ID string to model name (R185, I17). -/
  aliasTable : List (List Byte × List Byte)
  /-- RX_FIFO_DEPTH; `none` is the unbounded FIFO of the reference model (R37, I10). -/
  rxFifoDepth : Option Nat
  rxOverflow : RxOverflow
  lineFormat : LineFormat
deriving DecidableEq, Repr

/-- "A342VD10", the one raw product-ID string of the alias table (R185). -/
def aliasRaw : List Byte := [0x41, 0x33, 0x34, 0x32, 0x56, 0x44, 0x31, 0x30]
/-- "M-A542VR1", its model name (R185). -/
def aliasModel : List Byte := [0x4D, 0x2D, 0x41, 0x35, 0x34, 0x32, 0x56, 0x52, 0x31]

/-- The defaults of R9: READ_PAD 0x00, the six ASCII whitespace bytes, NONASCII = keep, the one known alias, an
unbounded FIFO, 8N1. (RX_OVERFLOW has no default and no effect on an unbounded FIFO: log entry 4.) -/
def Params.default : Params where
  readPad := 0x00
  wsSet := [0x09, 0x0A, 0x0B, 0x0C, 0x0D, 0x20]
  nonAscii := .keep
  aliasTable := [(aliasRaw, aliasModel)]
  rxFifoDepth := none
  rxOverflow := .dropNewest
  lineFormat := { dataBits := 8, parity := .noParity, stopBits := 1 }

/-- Bits of one character on the line: a start bit, the data bits, the parity bit if any, the stop bits (R333, I3). -/
def LineFormat.bitsPerByte (l : LineFormat) : Nat :=
  1 + l.dataBits + (if l.parity = .noParity then 0 else 1) + l.stopBits

/-- Byte time on the wire in ns, `bits_per_byte / b` (R333). No rule of the block depends on it. -/
def byteTimeNs (l : LineFormat) (baud : Nat) : Nat := l.bitsPerByte * 1000000000 / baud

/-! ## Draws -/

/-- The outcome of the platform's open (R132). -/
inductive PlatformOutcome where
  | ok | notFound | accessDenied | busy | otherFailure
deriving DecidableEq, Repr, Inhabited

/-- What the platform, the sensor and the clock do at one step of the block. Each part is an unconstrained input
(R9 PLATFORM_OPEN and PLATFORM_WRITE, R14, I6 to I9, I12 to I14, I19). -/
structure Draw where
  /-- How many ms pass before the step acts; `Now()` never decreases (R14, I14). -/
  elapsed : Nat
  /-- Bytes that the sensor sends before the step acts, in arrival order (R37). -/
  arrivals : List Byte
  /-- The platform fails this byte write or flush (PLATFORM_WRITE, R136). -/
  ioFails : Bool
  /-- The outcome of a platform open made at this step (PLATFORM_OPEN, R132). -/
  openOutcome : PlatformOutcome
  /-- If a block reset comes at this step, how many of the bytes the transmitter still held reach the sensor (I6). -/
  resetSends : Nat
deriving DecidableEq, Repr, Inhabited

/-- The draw of the reference timing where nothing happens (D33): no time passes, no byte arrives, nothing fails. -/
def Draw.quiet : Draw := { elapsed := 0, arrivals := [], ioFails := false, openOutcome := .ok, resetSends := 0 }

/-- A quiet draw at which the sensor's bytes `bs` arrive. -/
def Draw.answer (bs : List Byte) : Draw := { Draw.quiet with arrivals := bs }

/-- A quiet draw before which `ms` pass. -/
def Draw.after (ms : Nat) : Draw := { Draw.quiet with elapsed := ms }

/-- A draw at which the platform fails a byte write or a flush and nothing else happens (PLATFORM_WRITE, R136). -/
def Draw.ioFailure : Draw := { Draw.quiet with ioFails := true }

/-- A draw of the platform's open and nothing else (PLATFORM_OPEN, R132). -/
def Draw.opening (o : PlatformOutcome) : Draw := { Draw.quiet with openOutcome := o }

/-- The free draw: what the environment does at the `n`-th draw that no script fixes. It has no body, so nothing can be
proved of it: a claim that depends on it holds whatever it is (log entry 3). -/
opaque Config.freeDraw : Nat → Draw

end Sys2Proof
end

