-- ==== Sys2Proof/Machine/State.lean ====
section
/-! DEFINITION. The state of the block as plain data: the host-visible registers (R19 to R31), the internal state (R32
to R39), the observation (R16), and the model's own inputs (the host's accesses and the draws of the environment). -/

namespace Sys2Proof.Machine

/-! ## Error kinds, reasons, outcomes (R261, R262) -/

/-- The kinds of a transport error: codes 1 to 8 of STATUS.ERR (R261). -/
inductive TransportErr where
  | connNotFound | connPermissionDenied | connOther | timeout | protocol | io | notOpen | alreadyOpen
deriving DecidableEq, Repr

/-- STATUS.ERR (R261): NONE, a transport error, or ILLEGAL_OP. The reserved codes 10 to 15 have no value here. -/
inductive ErrKind where
  | noError
  | transport (k : TransportErr)
  | illegalOp
deriving DecidableEq, Repr

/-- STATUS.REASON (R262). The reserved codes 7 to 15 have no value here. -/
inductive Reason where
  | ok | transport | pollExpired | verifyFlagSet | notConfirmed | refused | decode
deriving DecidableEq, Repr

/-- The outcome `Fail(reason, k, at)` of an operation (R13, R262, R263). A transport error carries its kind and `at`,
where `none` is `—`; a refusal is `Fail(REFUSED, ILLEGAL_OP, —)`; the other reasons carry `NONE` and `—`. -/
inductive Failure where
  | transport (k : TransportErr) (rep : Option Byte)
  | pollExpired | verifyFlagSet | notConfirmed | refused | decode
deriving DecidableEq, Repr

/-! ## The sequencer (R32) -/

/-- The parameters of a poll: window, address, the mask whose bits must read 0, interval and bound in ms (R201). -/
structure Poll where
  window : BitVec 1
  addr : Byte
  mask : Half
  interval : Nat
  bound : Nat
deriving DecidableEq, Repr

/-- The non-fatal parts of an operation, whose failure does not reach the caller (R268). -/
inductive Guard where
  /-- The closing SelectWindow(0) of detectIdentity and exitAutoMode. -/
  | courtesy
  /-- The readiness wait that ends a flashTest (R212). -/
  | trailingWait
  /-- The flashTest of fullReset; its failure sets FT_WARN (R226). -/
  | flashTest
deriving DecidableEq, Repr

/-- One position of an operation's pseudocode: what the sequencer still has to do, one step of the block each (R4,
R14, R32). `rep` is the address a failure is reported against (R29). -/
inductive Act where
  /-- PlatformOpen and what OPEN does with its outcome (R131). -/
  | openStream
  /-- What CLOSE does (R135). -/
  | closeStream
  /-- SendCommand: the check that the stream is open, before the frame (R141). -/
  | frame (c : Command) (rep : Byte)
  /-- TxByte (R136). -/
  | tx (b : Byte) (rep : Byte)
  /-- Flush, which starts the response timer of a frame with `len` response bytes (R137). -/
  | flush (len : Nat) (rep : Byte)
  /-- RxRead: `need` bytes are still to come, `last` is when the last one came or the read started (R138). -/
  | rx (need : Nat) (last : Nat) (rep : Byte)
  /-- Sleep (R14). -/
  | sleep (d : Nat)
  /-- ParseWord (R166). -/
  | parse (rep : Byte)
  /-- Fail with VERIFY_FLAG_SET if the value read has a bit of the mask set (R206, R210). -/
  | verifyClear (mask : Half)
  /-- Fail with NOT_CONFIRMED if the value read has no bit of the mask set (R219). -/
  | confirmSet (mask : Half)
  /-- Keep the value read as the next identity word (R186). -/
  | keepWord
  /-- Decode the eight identity words (R184 to R186). -/
  | decodeIdentity
  /-- Poll: `start <- Now()` (R201). -/
  | pollStart (p : Poll)
  /-- Poll: the bound check, then the read of one attempt (R201). -/
  | pollCheck (p : Poll) (start : Nat)
  /-- Poll: the test of an attempt's value. A failure of the attempt ends here as "not yet" (R202). -/
  | pollTest (p : Poll) (start : Nat)
  /-- Enter a non-fatal part (R268). -/
  | enter (g : Guard)
  /-- Leave a non-fatal part. A failure inside it ends here (R268). -/
  | leave (g : Guard)
deriving DecidableEq, Repr

/-- The identity record (R181). -/
structure Identity where
  raw : List Byte
  product : List Byte
  serial : List Byte
deriving DecidableEq, Repr

/-- A running operation: the pair (op, step) of R32, where the step is the list of positions still ahead, and the
sequencer's local values, which exist only while it runs (R301). -/
structure Run where
  /-- The operation code (R94). -/
  op : BitVec 4
  /-- What is left to do. Empty: the operation has passed and reports next. -/
  todo : List Act
  /-- The response bytes taken and not yet parsed (`buf` of R138, `acc` of R147). -/
  buf : List Byte
  /-- The value of the last register read (R166). -/
  value : Half
  /-- The identity words read so far (`pw` and `sw` of R186). -/
  words : List Half
  /-- The decoded identity record (R186). -/
  ident : Option Identity
  /-- `ftw` of fullReset (R224). -/
  ftw : Bool
deriving DecidableEq, Repr

/-! ## The stream and the accesses of the host -/

/-- The stream state (R36). -/
structure Stream where
  isOpen : Bool
  timeout : Word
  baud : Word
  port : Word
deriving DecidableEq, Repr

/-- What the host does next while no operation runs. `index` is a word of the host window: offset `4 * index` (R19). -/
inductive HostAccess where
  | write (index : BitVec 10) (v : Word)
  /-- The host lets `ms` milliseconds pass. -/
  | wait (ms : Nat)
  /-- Block reset (R301). -/
  | reset
deriving DecidableEq, Repr

/-- What the host does at one step of a running operation (R23, R35, R302). -/
inductive BusyAccess where
  | quiet
  | write (index : BitVec 10) (v : Word)
  | reset
deriving DecidableEq, Repr

/-! ## Memory: the byte-string registers of the host window -/

/-- Bytes by window offset. An offset not listed reads as 0x00, the reset value R20 gives those registers. -/
abbrev Memory := List Host.Cell

/-- The canonical form: offsets strictly rising, and no entry equal to what an unlisted offset reads as. -/
abbrev Memory.wf (m : Memory) : Prop := m.Pairwise (fun c d => c.1 < d.1) ∧ ∀ c ∈ m, c.2 ≠ 0#8

/-! ## The state -/

/-- The whole state. STATUS.BUSY and STATUS.OPEN are not stored: they are `seq` not IDLE (R33, R34) and `stream.isOpen`
(R22). -/
structure State where
  /-- OPREQ: the last accepted request word (R20, R33). -/
  opreq : Word
  /-- STATUS.DONE (R21). -/
  done : Bool
  /-- STATUS.RESULT (R21). -/
  result : Bool
  /-- STATUS.VALID (R21). -/
  valid : Bool
  /-- STATUS.FT_WARN (R21, R27). -/
  ftWarn : Bool
  /-- STATUS.REJECT (R21, R35). -/
  reject : Bool
  /-- STATUS.ERR (R261). -/
  err : ErrKind
  /-- STATUS.REASON (R262). -/
  reason : Reason
  /-- STATUS.LAST_OP (R21). -/
  lastOp : BitVec 4
  /-- RDATA [15:0]; [31:16] read 0 (R20, R25). -/
  rdata : Half
  /-- FAIL_ADDR: ADDR where FAIL_VALID = 1, `none` where it is 0 (R20, R29). -/
  failAddr : Option Byte
  /-- CFG_BAUD (R30). -/
  cfgBaud : Word
  /-- CFG_READ_TIMEOUT, ms (R36). -/
  cfgReadTimeout : Word
  /-- CFG_PORT (R20). -/
  cfgPort : Word
  /-- CMD0 to CMD7, bits [31:24] as written (R31). -/
  cmds : Vector Word 8
  /-- RESP_LEN (R28). -/
  respLen : Word
  /-- ID_LENS (R20, R26). -/
  idLens : Word
  /-- The byte-string registers ID_PRODUCT_RAW, ID_PRODUCT, ID_SERIAL and RESP, by window offset (R20). -/
  win : Memory
  /-- The sequencer; `none` is IDLE (R32). -/
  seq : Option Run
  /-- The stream (R36). -/
  stream : Stream
  /-- The receive FIFO, oldest byte first (R37). -/
  rx : List Byte
  /-- Bytes that wait outside a full FIFO under RX_OVERFLOW = stall (I11). -/
  held : List Byte
  /-- The time base in ms (R14, R39). -/
  now : Nat
  /-- The TX trace: the bytes handed to TxByte, first one first (R16). -/
  tx : List Byte
  /-- How many bytes at the end of the TX trace were handed over since the last flush that completed (R137, I6). -/
  txPending : Nat
  /-- The parameters of R9. MODEL: fixed for one machine. -/
  params : Params
  /-- MODEL: the host's accesses while no operation runs, the next one first. -/
  host : List HostAccess
  /-- MODEL: the host's accesses while an operation runs, one for each step of it; at the end of the list the host does
  nothing. -/
  meddle : List BusyAccess
  /-- MODEL: the draws of the next steps; at the end of the list `Config.freeDraw` gives them. -/
  script : List Draw
  /-- MODEL: how many free draws have been taken. -/
  drawCount : Nat
deriving DecidableEq, Repr

/-- The block never stops with a fault: every error of the spec ends an operation and is reported in STATUS (R263,
R265), and the sequencer then waits for the next request. So there is no fault to name. -/
inductive Fault where
deriving DecidableEq, Repr

/-- Why a step has no meaning. -/
inductive Refusal where
  /-- Raised by an arm of exec whose instruction has no meaning yet. Safe. No arm of this model raises it. -/
  | notModelled (mnemonic : String)
deriving DecidableEq, Repr

/-- The stream after block reset (R36, R301). -/
def Stream.reset : Stream := { isOpen := false, timeout := tRead, baud := baudDefault, port := 0#32 }

/-- The block right after reset: every value is the one R301 gives. The time base is not reset by anything (R39); 0 is
where this model starts it, and the parameters are the defaults of R9. -/
def State.reset : State where
  opreq := 0#32
  done := false
  result := false
  valid := false
  ftWarn := false
  reject := false
  err := .noError
  reason := .ok
  lastOp := 0#4
  rdata := 0#16
  failAddr := none
  cfgBaud := baudDefault
  cfgReadTimeout := tRead
  cfgPort := 0#32
  cmds := Vector.replicate 8 0#32
  respLen := 0#32
  idLens := 0#32
  win := []
  seq := none
  stream := Stream.reset
  rx := []
  held := []
  now := 0
  tx := []
  txPending := 0
  params := Params.default
  host := []
  meddle := []
  script := []
  drawCount := 0

end Sys2Proof.Machine
end

