-- ==== Sys2Proof/Machine/Flags.lean ====
section
/-! DEFINITION. The codes and fields of STATUS and FAIL_ADDR (R21, R29, R261, R262), and the register values that a
completion reports (R25 to R29, R34, R263). -/

namespace Sys2Proof.Machine

/-! ## Codes -/

/-- The code of a transport error kind (R261). -/
def TransportErr.code : TransportErr → BitVec 4
  | .connNotFound => 1#4
  | .connPermissionDenied => 2#4
  | .connOther => 3#4
  | .timeout => 4#4
  | .protocol => 5#4
  | .io => 6#4
  | .notOpen => 7#4
  | .alreadyOpen => 8#4

/-- STATUS.ERR (R261). -/
def ErrKind.code : ErrKind → BitVec 4
  | .noError => 0#4
  | .transport k => k.code
  | .illegalOp => 9#4

/-- STATUS.REASON (R262). -/
def Reason.code : Reason → BitVec 4
  | .ok => 0#4
  | .transport => 1#4
  | .pollExpired => 2#4
  | .verifyFlagSet => 3#4
  | .notConfirmed => 4#4
  | .refused => 5#4
  | .decode => 6#4

/-! ## STATUS and FAIL_ADDR as words -/

/-- STATUS.BUSY: an operation runs, that is, `seq` is not IDLE (R21, R33, R34). -/
def State.busy (s : State) : Bool := s.seq.isSome

/-- The word the host reads at STATUS (R21). Bit 7 and bits [31:20] read 0. -/
def State.statusWord (s : State) : Word :=
  0#12 ++ s.lastOp ++ s.reason.code ++ s.err.code ++ 0#1 ++ BitVec.ofBool s.reject ++ BitVec.ofBool s.ftWarn ++
    BitVec.ofBool s.stream.isOpen ++ BitVec.ofBool s.valid ++ BitVec.ofBool s.result ++ BitVec.ofBool s.done ++
    BitVec.ofBool s.busy

/-- The word the host reads at FAIL_ADDR: ADDR in [7:0], FAIL_VALID in bit 8, the rest 0 (R20, R29). -/
def State.failAddrWord (s : State) : Word :=
  match s.failAddr with
  | some a => 0#23 ++ 1#1 ++ a
  | none => 0#32

/-! ## What a completion reports -/

/-- The values a completion writes to the result registers, all together (R24, R34). -/
structure Report where
  result : Bool
  valid : Bool
  err : ErrKind
  reason : Reason
  rdata : Half
  failAddr : Option Byte
  resp : List Byte
  ident : Option Identity
deriving DecidableEq, Repr

/-- STATUS.ERR of a failure (R262, R263). -/
def Failure.err : Failure → ErrKind
  | .transport k _ => .transport k
  | .pollExpired => .noError
  | .verifyFlagSet => .noError
  | .notConfirmed => .noError
  | .refused => .illegalOp
  | .decode => .noError

/-- STATUS.REASON of a failure (R262, R263). -/
def Failure.reason : Failure → Reason
  | .transport _ _ => .transport
  | .pollExpired => .pollExpired
  | .verifyFlagSet => .verifyFlagSet
  | .notConfirmed => .notConfirmed
  | .refused => .refused
  | .decode => .decode

/-- The `at` of a failure (R29, R263). -/
def Failure.rep : Failure → Option Byte
  | .transport _ rep => rep
  | .pollExpired => none
  | .verifyFlagSet => none
  | .notConfirmed => none
  | .refused => none
  | .decode => none

/-- What `Fail(reason, k, at)` reports: RESULT = 0, REASON, ERR and FAIL_ADDR as R263 maps them; no value (R25, R26,
R28). -/
def failReport (f : Failure) : Report where
  result := false
  valid := false
  err := f.err
  reason := f.reason
  rdata := 0#16
  failAddr := f.rep
  resp := []
  ident := none

/-- The operations whose Pass carries response bytes: SEND_COMMAND and SEND_COMMANDS (R28). -/
def returnsBytes (op : BitVec 4) : Bool := op == 3#4 || op == 4#4
/-- The operation whose Pass carries a register value: READ_REGISTER_WORD (R25). -/
def returnsWord (op : BitVec 4) : Bool := op == 6#4
/-- The operation whose Pass carries an identity record: DETECT_IDENTITY (R26). -/
def returnsIdentity (op : BitVec 4) : Bool := op == 7#4

/-- What `Pass(v)` reports: RESULT = 1, REASON, ERR and FAIL_ADDR 0 (R263), and the operation's value where it has one
(R25, R26, R28). -/
def passReport (r : Run) : Report where
  result := true
  valid := returnsWord r.op || (returnsIdentity r.op && r.ident.isSome)
  err := .noError
  reason := .ok
  rdata := if returnsWord r.op then r.value else 0#16
  failAddr := none
  resp := if returnsBytes r.op then r.buf.take respCap else []
  ident := if returnsIdentity r.op then r.ident else none

/-- STATUS.FT_WARN at a completion: `ftw`, which only FULL_RESET reports (R27, R226). -/
def reportedFtWarn (r : Run) : Bool := r.op == 14#4 && r.ftw

/-- ID_LENS of an identity record: the three lengths in [7:0], [15:8] and [23:16] (R20). -/
def idLensWord (i : Identity) : Word :=
  0#8 ++ BitVec.ofNat 8 i.serial.length ++ BitVec.ofNat 8 i.product.length ++ BitVec.ofNat 8 i.raw.length

end Sys2Proof.Machine
end

