-- ==== Sys2Proof/Machine/Ops.lean ====
section
/-! DEFINITION. The named operations over the state: the bytes of the host window, the environment of a step, the
acceptance and the completion of an operation, a failure and where it ends, block reset, and the host window. -/

namespace Sys2Proof.Machine

/-! ## Bytes of the host window -/

/-- The byte at an offset; one not listed reads as 0x00 (R19, R20). -/
def Memory.read : Memory → Nat → Byte
  | [], _ => 0#8
  | (k, v) :: m, a => if k = a then v else Memory.read m a

/-- Write one byte and keep the canonical form. -/
def Memory.write : Memory → Nat → Byte → Memory
  | [], a, v => if v = 0#8 then [] else [(a, v)]
  | (k, w) :: m, a, v =>
    if a < k then (if v = 0#8 then (k, w) :: m else (a, v) :: (k, w) :: m)
    else if a = k then (if v = 0#8 then m else (a, v) :: m)
    else (k, w) :: Memory.write m a v

/-- Write bytes at consecutive offsets: a byte-string register holds its byte `i` at offset `base + i` (R19). -/
def Memory.writeBytes : Memory → Nat → List Byte → Memory
  | m, _, [] => m
  | m, a, b :: bs => Memory.writeBytes (Memory.write m a b) (a + 1) bs

/-- Base offset of ID_PRODUCT_RAW (R20). -/
def idRawBase : Nat := 0x050
/-- Base offset of ID_PRODUCT (R20). -/
def idProductBase : Nat := 0x060
/-- Base offset of ID_SERIAL (R20). -/
def idSerialBase : Nat := 0x070
/-- Base offset of RESP (R20). -/
def respBase : Nat := 0x800

/-- The byte-string registers after a completion: the identity strings left-aligned, the response bytes, every other
byte 0x00 (R26, R28). -/
def windowImage (ident : Option Identity) (resp : List Byte) : Memory :=
  let ids : Memory := match ident with
    | some i => Memory.writeBytes (Memory.writeBytes (Memory.writeBytes [] idRawBase i.raw) idProductBase i.product)
        idSerialBase i.serial
    | none => []
  Memory.writeBytes ids respBase resp

/-! ## The environment of a step -/

/-- The draw of the next step: the script's next one, else a free one. -/
def State.nextDraw (s : State) : Draw :=
  match s.script with
  | d :: _ => d
  | [] => Config.freeDraw s.drawCount

/-- The state with its next draw taken. -/
def State.dropDraw (s : State) : State :=
  match s.script with
  | _ :: ds => { s with script := ds }
  | [] => { s with drawCount := s.drawCount + 1 }

/-- Bytes from the sensor: appended to `rx` in arrival order while the stream is open, lost while it is closed (R37).
A FIFO of a bounded depth treats a byte that meets it full as RX_OVERFLOW says (I10, I11). -/
def State.arrive (s : State) (bs : List Byte) : State :=
  if s.stream.isOpen then
    match s.params.rxFifoDepth with
    | none => { s with rx := s.rx ++ bs }
    | some n =>
      match s.params.rxOverflow with
      | .dropNewest => { s with rx := s.rx ++ bs.take (n - s.rx.length) }
      | .dropOldest => { s with rx := (s.rx ++ bs).drop ((s.rx ++ bs).length - n) }
      | .stall =>
        { s with
          rx := s.rx ++ (s.held ++ bs).take (n - s.rx.length)
          held := (s.held ++ bs).drop (n - s.rx.length) }
  else s

/-- What the environment does before a step acts: time passes, bytes arrive. -/
def State.environment (s : State) : State :=
  { s.dropDraw with now := s.now + s.nextDraw.elapsed }.arrive s.nextDraw.arrivals

/-! ## Acceptance and completion -/

/-- The sequencer at the first step of an operation (R33). -/
def startRun (op : BitVec 4) (todo : List Act) : Run :=
  { op := op, todo := todo, buf := [], value := 0#16, words := [], ident := none, ftw := false }

/-- Acceptance of the request word `q` (R33). The result registers other than the STATUS fields keep their values. -/
def State.accept (s : State) (q : Word) (todo : List Act) : State :=
  { s with
    opreq := q
    lastOp := opField q
    done := false
    result := false
    valid := false
    ftWarn := false
    reject := false
    err := .noError
    reason := .ok
    seq := some (startRun (opField q) todo) }

/-- Completion: the result registers change all together, BUSY falls, DONE rises, and `seq` is IDLE (R24, R34). -/
def State.commit (s : State) (rep : Report) (ftWarn : Bool) : State :=
  { s with
    done := true
    result := rep.result
    valid := rep.valid
    ftWarn := ftWarn
    err := rep.err
    reason := rep.reason
    rdata := rep.rdata
    failAddr := rep.failAddr
    respLen := BitVec.ofNat 32 rep.resp.length
    idLens := match rep.ident with
      | some i => idLensWord i
      | none => 0#32
    win := windowImage rep.ident rep.resp
    seq := none }

/-- Completion with Pass (R34, R263). -/
def State.pass (s : State) (r : Run) : State := s.commit (passReport r) (reportedFtWarn r)

/-- Completion with Fail (R34, R263). -/
def State.completeFail (s : State) (r : Run) (f : Failure) : State := s.commit (failReport f) (reportedFtWarn r)

/-! ## A failure and where it ends (R265 to R268) -/

/-- Where a failure ends: at the test of a poll's attempt, which sleeps and tries again (R202), or at the end of a
non-fatal part (R268); the flag says that the part was fullReset's flashTest. `none`: nothing stops it, and the
operation fails. The positions passed over are not run (R266). -/
def unwind : List Act → Option (List Act × Bool)
  | [] => none
  | .pollTest p start :: rest => some (.sleep p.interval :: .pollCheck p start :: rest, false)
  | .leave g :: rest => some (rest, g == .flashTest)
  | _ :: rest => unwind rest

/-- The sequencer goes on with `r`. -/
def State.goOn (s : State) (r : Run) : State := { s with seq := some r }

/-- A failure of the running operation `r`, whose positions still ahead are `r.todo`: the one operation by which every
error of the spec is taken (R265). Where something stops it, the bytes read so far are discarded (R138); else the
operation completes with it (R263, R266). -/
def State.failWith (s : State) (r : Run) (f : Failure) : State :=
  match unwind r.todo with
  | some (todo, isFlashTest) => s.goOn { r with todo := todo, buf := [], ftw := r.ftw || isFlashTest }
  | none => s.completeFail r f

/-- A request refused without a step of the sequencer: an illegal word (R102). -/
def State.refuse (s : State) (q : Word) : State :=
  (s.accept q []).completeFail (startRun (opField q) []) .refused

/-! ## Block reset -/

/-- Block reset (R301, R302). The time base, the parameters and the model's inputs stay; the stream is released. Of the
bytes the transmitter still held, the first `sends` reach the sensor (I6). -/
def State.blockReset (s : State) (sends : Nat) : State :=
  { State.reset with
    now := s.now
    tx := s.tx.take (s.tx.length - s.txPending + sends)
    params := s.params
    host := s.host
    meddle := s.meddle
    script := s.script
    drawCount := s.drawCount }

/-! ## The host window (R19, R20) -/

/-- Word index of OPREQ. -/
def opreqIndex : BitVec 10 := 0#10

/-- Four bytes of the window as a little-endian word (R19). -/
def State.windowWord (s : State) (offset : Nat) : Word :=
  wordOfBytes (s.win.read offset) (s.win.read (offset + 1)) (s.win.read (offset + 2)) (s.win.read (offset + 3))

/-- The registers at word indexes 0x00 to 0x10, in the order of their offsets (R20). -/
def State.registers (s : State) : List Word :=
  [s.opreq, s.statusWord, 0#16 ++ s.rdata, s.failAddrWord, s.cfgBaud, s.cfgReadTimeout, s.cfgPort, s.respLen] ++
    s.cmds.toList ++ [s.idLens]

/-- The word index `n` belongs to a byte-string register: ID_PRODUCT_RAW, ID_PRODUCT, ID_SERIAL or RESP (R20). -/
def inByteString (n : Nat) : Bool :=
  (decide (0x14 ≤ n) && decide (n < 0x20)) || (decide (0x200 ≤ n) && decide (n < 0x3FE))

/-- The word the host reads at offset `4 * index` (R19, R20). An offset that R20 does not list reads 0. -/
def State.hostRead (s : State) (index : BitVec 10) : Word :=
  if inByteString index.toNat then s.windowWord (4 * index.toNat) else s.registers.getD index.toNat 0#32

/-- A host write to a register other than OPREQ while no operation runs: CFG_BAUD, CFG_READ_TIMEOUT, CFG_PORT and CMD0
to CMD7 take the word; a read-only register and an offset that R20 does not list ignore it (R19, R20, R23). -/
def State.writeConfig (s : State) (index : BitVec 10) (v : Word) : State :=
  if index = 0x04#10 then { s with cfgBaud := v }
  else if index = 0x05#10 then { s with cfgReadTimeout := v }
  else if index = 0x06#10 then { s with cfgPort := v }
  else if 0x08 ≤ index.toNat ∧ index.toNat < 0x10 then { s with cmds := s.cmds.setIfInBounds (index.toNat - 0x08) v }
  else s

/-- A write to OPREQ while an operation runs: dropped, and REJECT rises at once (R35, R272). -/
def State.rejectRequest (s : State) : State := { s with reject := true }

/-- A host write while an operation runs: OPREQ as R35 says, every other one ignored (R23). -/
def State.writeBusy (s : State) (index : BitVec 10) (_v : Word) : State :=
  if index = opreqIndex then s.rejectRequest else s

end Sys2Proof.Machine
end

