-- ==== Sys2Proof/Machine/Operands.lean ====
section
/-! DEFINITION. The operand forms: the command list entries (R31), and the pseudocode of every operation as the list of
positions its sequencer runs (R161 to R171, R186, R201 to R228). -/

namespace Sys2Proof.Machine

/-- A command list entry CMDi: LEN in [23:16], B1 in [15:8], B2 in [7:0]; [31:24] is ignored (R31). -/
def entryCommand (w : Word) : Command := ⟨w.extractLsb' 16 8, w.extractLsb' 8 8, w.extractLsb' 0 8⟩

/-- The commands CMD0 to CMD(n-1), in that order (R95, R148). -/
def State.commandList (s : State) (n : Nat) : List Command := (s.cmds.toList.take n).map entryCommand

/-! ## Frames and register access -/

/-- SendCommand, its failure reported against byte 1 (R141). -/
def sendActs (c : Command) : List Act := [.frame c c.b1]

/-- SendCommands (R147). -/
def sendListActs (cs : List Command) : List Act := cs.flatMap sendActs

/-- The window select of a window (R161). -/
def selectCommand (w : BitVec 1) : Command := ⟨0x00, winselAddr, w.zeroExtend 8⟩

/-- SelectWindow (R161). -/
def selectWindowActs (w : BitVec 1) : List Act := sendActs (selectCommand w)

/-- WriteWin: the select, then the write (R162). -/
def writeWinActs (w : BitVec 1) (a v : Byte) : List Act := sendListActs [selectCommand w, ⟨0x00, a, v⟩]

/-- The read command of a register (R62, R98). -/
def readCommand (p : Params) (a : Byte) : Command := ⟨readLen, a, p.readPad⟩

/-- ReadRegisterWord: the select and the read, both reported against the register, then the parser (R165). -/
def readRegisterActs (p : Params) (a : Byte) (w : BitVec 1) : List Act :=
  [.frame (selectCommand w) a, .frame (readCommand p a) a, .parse a]

/-- ReadUnselected (R169). -/
def readUnselectedActs (p : Params) (a : Byte) : List Act := [.frame (readCommand p a) a, .parse a]

/-- ResetSpell (R170). -/
def resetSpellActs : List Act := sendListActs (List.replicate spellRepeat ⟨0x00, spellByte, spellByte⟩)

/-! ## Polls -/

/-- flashBackup's poll of GLOB_CMD bit 3 (R206). -/
def backupPoll : Poll :=
  { window := 1#1, addr := globCmdRead, mask := backupRunning, interval := tFlashPoll, bound := tFlashBound }

/-- flashTest's poll of MSC_CTRL bit 10 (R210, R211). -/
def testPoll : Poll :=
  { window := 1#1, addr := modeMscRead, mask := testRunning, interval := tFlashPoll, bound := tFlashBound }

/-- waitUntilReady's poll of GLOB_CMD bit 10 (R214). -/
def readyPoll (bound : Nat) : Poll :=
  { window := 1#1, addr := globCmdRead, mask := notReady, interval := tReadyPoll, bound := bound }

/-- One attempt of a poll: the read of the register and the test of its value (R201). -/
def attemptActs (p : Params) (q : Poll) (start : Nat) : List Act :=
  readRegisterActs p q.addr q.window ++ [.pollTest q start]

/-! ## Operations -/

/-- DETECT_IDENTITY (R186). -/
def detectIdentityActs (p : Params) : List Act :=
  (productAddrs ++ serialAddrs).flatMap (fun a => readRegisterActs p a 1#1 ++ [.keepWord]) ++
    [.decodeIdentity, .enter .courtesy]

/-- SetUartAutoStart (R203). -/
def setUartAutoStartActs : List Act :=
  resetSpellActs ++ [.sleep tSettle] ++ writeWinActs 1#1 uartCtrl uartAutoOn

/-- FlashBackup (R206). -/
def flashBackupActs (p : Params) : List Act :=
  writeWinActs 1#1 globCmdWrite flashBackupValue ++ [.pollStart backupPoll] ++
    readRegisterActs p diagStat1 0#1 ++ [.verifyClear flashBuErr]

/-- FlashTest (R210, R212). -/
def flashTestActs (p : Params) : List Act :=
  writeWinActs 1#1 modeMscWrite flashTestValue ++ [.pollStart testPoll] ++
    readRegisterActs p diagStat1 0#1 ++ [.verifyClear flashErr, .enter .trailingWait]

/-- WaitUntilReady (R214). -/
def waitUntilReadyActs (bound : Nat) : List Act := [.pollStart (readyPoll bound)]

/-- SoftwareReset (R217). -/
def softwareResetActs : List Act :=
  writeWinActs 1#1 globCmdWrite swResetValue ++ waitUntilReadyActs tReadySwrst

/-- ExitAutoMode (R219, R220). -/
def exitAutoModeActs (p : Params) (persist : Bool) : List Act :=
  writeWinActs 0#1 modeMscWrite modeExitValue ++ [.sleep tModeExit] ++ readUnselectedActs p modeMscRead ++
    [.confirmSet configMode] ++ writeWinActs 1#1 uartCtrl 0x00 ++
    (if persist then flashBackupActs p else []) ++ [.enter .courtesy]

/-- FullReset (R224, R225). -/
def fullResetActs (p : Params) (persist : Bool) : List Act :=
  (if persist then exitAutoModeActs p true else selectWindowActs 0#1) ++ resetSpellActs ++
    [.sleep tSettle, .enter .flashTest] ++ softwareResetActs ++ [.sleep tStabilize]

/-- Configure (R228). -/
def configureActs (p : Params) : List Act := setUartAutoStartActs ++ flashBackupActs p

/-- The inside of a non-fatal part, which ends at its `leave` (R268). -/
def guardActs (p : Params) : Guard → List Act
  | .courtesy => selectWindowActs 0#1 ++ [.leave .courtesy]
  | .trailingWait => waitUntilReadyActs tReadyFt ++ [.leave .trailingWait]
  | .flashTest => flashTestActs p ++ [.leave .flashTest]

end Sys2Proof.Machine
end

