-- ==== Sys2Proof/Machine/Text.lean ====
section
/-! DEFINITION. The response parser's value extraction and the identity text decoder (R166, R183 to R185). -/

namespace Sys2Proof.Machine

/-- ParseWord: bytes 1 and 2 of the response, most significant first. A response of fewer than 4 bytes has no value,
and nothing else is checked (R166, R167). -/
def parseWord : List Byte → Option Half
  | _ :: msb :: lsb :: _ :: _ => some (msb ++ lsb)
  | _ => none

/-- DecodeWord: the two characters of a word, low byte first (R183). -/
def decodeWord (v : Half) : List Byte := [v.extractLsb' 0 8, v.extractLsb' 8 8]

/-- Trim the bytes of `ws` from both ends (R184). -/
def trim (ws : List Byte) (s : List Byte) : List Byte :=
  ((s.dropWhile ws.contains).reverse.dropWhile ws.contains).reverse

/-- A byte outside ASCII (R184). -/
def isNonAscii (b : Byte) : Bool := decide (0x80 ≤ b.toNat)

/-- DecodeText: the words' characters in order, null bytes dropped, bytes ≥ 0x80 as NONASCII says, whitespace trimmed
at the two ends (R184). `none` is Reject. -/
def decodeText (p : Params) (ws : List Half) : Option (List Byte) :=
  let s := (ws.flatMap decodeWord).filter (· != 0x00)
  match p.nonAscii with
  | .keep => some (trim p.wsSet s)
  | .drop => some (trim p.wsSet (s.filter (fun b => !isNonAscii b)))
  | .reject => if s.any isNonAscii then none else some (trim p.wsSet s)

/-- The alias table: an exact match gives the model name, anything else is its own product ID (R185). -/
def productName (p : Params) (raw : List Byte) : List Byte :=
  match p.aliasTable.find? (fun row => row.1 == raw) with
  | some row => row.2
  | none => raw

/-- The identity record of the eight words, product words first (R181, R186). `none`: a string is rejected. A register
holds at most ID_CAP bytes. -/
def identityOf (p : Params) (ws : List Half) : Option Identity :=
  match decodeText p (ws.take 4), decodeText p (ws.drop 4) with
  | some raw, some serial =>
    some { raw := raw.take idCap, product := (productName p raw).take idCap, serial := serial.take idCap }
  | _, _ => none

/-- The words whose low-byte-first decoding is the text `t` (R188): `vi = t[2i+1] << 8 | t[2i]`. -/
def encodeText : List Byte → List Half
  | lo :: hi :: t => (hi ++ lo) :: encodeText t
  | _ => []

end Sys2Proof.Machine
end

