-- ==== Sys2Proof/Machine/Sequencer.lean ====
section
/-! DEFINITION. The sequencer: one step of a running operation (`tick`), and running until the operation, or the
frame, ends (R4, R14, R32). -/

namespace Sys2Proof.Machine

/-! ## The steps -/

/-- The error kind of a platform open that failed (R132). -/
def connKind : PlatformOutcome → Option TransportErr
  | .ok => none
  | .notFound => some .connNotFound
  | .accessDenied => some .connPermissionDenied
  | .busy => some .connOther
  | .otherFailure => some .connOther

/-- OPEN (R131, R133, R134). -/
def State.openStream (s : State) (r : Run) (o : PlatformOutcome) : State :=
  if s.stream.isOpen then s.failWith r (.transport .alreadyOpen none)
  else match connKind o with
    | some k => s.failWith r (.transport k none)
    | none =>
      { s with
        stream := { isOpen := true, timeout := s.cfgReadTimeout, baud := s.cfgBaud, port := s.cfgPort }
        rx := []
        held := [] }.goOn r

/-- CLOSE (R135). -/
def State.closeStream (s : State) (r : Run) : State :=
  { s with stream := { s.stream with isOpen := false }, held := [] }.goOn r

/-- The wire steps of a frame: three bytes, the flush, and after it the response (R136, R137, R141). -/
def frameActs (c : Command) (rep : Byte) : List Act :=
  [.tx c.b1 rep, .tx c.b2 rep, .tx term rep, .flush c.len.toNat rep]

/-- SendCommand's check that the stream is open (R141, R270). -/
def State.startFrame (s : State) (r : Run) (c : Command) (rep : Byte) : State :=
  if s.stream.isOpen then s.goOn { r with todo := frameActs c rep ++ r.todo }
  else s.failWith r (.transport .notOpen (some rep))

/-- TxByte: the byte joins the TX trace, or the platform fails it (R16, R136). -/
def State.txByte (s : State) (r : Run) (b rep : Byte) (fails : Bool) : State :=
  if fails then s.failWith r (.transport .io (some rep))
  else { s with tx := s.tx ++ [b], txPending := s.txPending + 1 }.goOn r

/-- Flush: afterwards the transmitter holds nothing, and the response timer starts (R136, R137). -/
def State.flushTx (s : State) (r : Run) (len : Nat) (rep : Byte) (fails : Bool) : State :=
  if fails then s.failWith r (.transport .io (some rep))
  else { s with txPending := 0 }.goOn
    (if len = 0 then r else { r with todo := .rx len s.now rep :: r.todo })

/-- RxRead: take a byte if there is one, else fail if the timeout has passed since `last`, else wait (R138, R270). -/
def State.rxByte (s : State) (r : Run) (need last : Nat) (rep : Byte) : State :=
  match need with
  | 0 => s.goOn r
  | n + 1 =>
    match s.rx with
    | b :: bs =>
      { s with rx := bs }.goOn
        { r with
          buf := r.buf ++ [b]
          todo := if n = 0 then r.todo else .rx n s.now rep :: r.todo }
    | [] =>
      if s.stream.timeout.toNat ≤ s.now - last then s.failWith r (.transport .timeout (some rep))
      else s.goOn { r with todo := .rx (n + 1) last rep :: r.todo }

/-- ParseWord, and an empty buffer for the next read (R166, R167). -/
def State.parseResponse (s : State) (r : Run) (rep : Byte) : State :=
  match parseWord r.buf with
  | some v => s.goOn { r with value := v, buf := [] }
  | none => s.failWith r (.transport .protocol (some rep))

/-- The identity record of the words read, or the DECODE failure (R186). -/
def State.decodeIdentity (s : State) (r : Run) : State :=
  match identityOf s.params r.words with
  | some i => s.goOn { r with ident := some i }
  | none => s.failWith r .decode

/-- The bound check of a poll: Expired, which fails the poll's caller, or one more attempt (R201). -/
def State.checkPoll (s : State) (r : Run) (p : Poll) (start : Nat) : State :=
  if p.bound ≤ s.now - start then s.failWith r .pollExpired
  else s.goOn { r with todo := attemptActs s.params p start ++ r.todo }

/-- The test of an attempt's value: Ready, or sleep and check the bound again (R201). -/
def State.testPoll (s : State) (r : Run) (p : Poll) (start : Nat) : State :=
  if r.value &&& p.mask = 0#16 then s.goOn r
  else s.goOn { r with todo := .sleep p.interval :: .pollCheck p start :: r.todo }

/-- What the block does at one position; `r` is the running operation with that position taken off its list. -/
def State.act (s : State) (r : Run) (d : Draw) : Act → State
  | .openStream => s.openStream r d.openOutcome
  | .closeStream => s.closeStream r
  | .frame c rep => s.startFrame r c rep
  | .tx b rep => s.txByte r b rep d.ioFails
  | .flush len rep => s.flushTx r len rep d.ioFails
  | .rx need last rep => s.rxByte r need last rep
  | .sleep ms => { s with now := s.now + ms }.goOn r
  | .parse rep => s.parseResponse r rep
  | .verifyClear mask => if r.value &&& mask = 0#16 then s.goOn r else s.failWith r .verifyFlagSet
  | .confirmSet mask => if r.value &&& mask = 0#16 then s.failWith r .notConfirmed else s.goOn r
  | .keepWord => s.goOn { r with words := r.words ++ [r.value] }
  | .decodeIdentity => s.decodeIdentity r
  | .pollStart p => s.goOn { r with todo := .pollCheck p s.now :: r.todo }
  | .pollCheck p start => s.checkPoll r p start
  | .pollTest p start => s.testPoll r p start
  | .enter g => s.goOn { r with todo := guardActs s.params g ++ r.todo }
  | .leave _ => s.goOn r

/-- The running operation does its next step: the position at the head of its list, or, with none left, the completion
with Pass (R32, R34). -/
def State.advance (s : State) (d : Draw) : State :=
  match s.seq with
  | none => s
  | some r =>
    match r.todo with
    | [] => s.pass r
    | a :: rest => s.act { r with todo := rest } d a

/-- The host's access at this step of a running operation is taken off its list. -/
def State.dropMeddle (s : State) : State := { s with meddle := s.meddle.tail }

/-- One step of the block: the environment acts (time passes, bytes arrive), then the host if it accesses the busy
block, then the running operation. A block reset ends the operation (R302). With no operation running, only the
environment acts. -/
def State.tick (s : State) : State :=
  match s.seq with
  | none => s.environment
  | some _ =>
    match s.meddle with
    | .reset :: _ => s.environment.dropMeddle.blockReset s.nextDraw.resetSends
    | .write index v :: _ => (s.environment.dropMeddle.writeBusy index v).advance s.nextDraw
    | .quiet :: _ => s.environment.dropMeddle.advance s.nextDraw
    | [] => s.environment.advance s.nextDraw

/-! ## Running to an end -/

/-- How many steps one step of the machine may take. An operation that needs more stays running, and the next step of
the machine goes on with it (log entry 6). -/
def tickFuel : Nat := 1000000000000

/-- Steps until no operation runs. -/
def runToIdle : Nat → State → State
  | 0, s => s
  | n + 1, s => if s.busy then runToIdle n s.tick else s

/-- A position of the wire part of a frame. -/
def Act.isWire : Act → Bool
  | .tx _ _ => true
  | .flush _ _ => true
  | .rx _ _ _ => true
  | _ => false

/-- A frame is on the wire, and `k` positions come after it. -/
def State.onWire (s : State) (k : Nat) : Bool :=
  match s.seq with
  | some r => decide (k < r.todo.length) && r.todo.head?.any Act.isWire
  | none => false

/-- Steps until the frame on the wire has ended, where `k` positions come after it. -/
def runFrame : Nat → Nat → State → State
  | 0, _, s => s
  | n + 1, k, s => if s.onWire k then runFrame n k s.tick else s

/-! ## Whole instructions -/

/-- A request word `q` whose operation is `todo`: while an operation runs it is dropped (R35); else it is accepted (R33)
and runs to its completion (R34). -/
def State.request (s : State) (q : Word) (todo : List Act) : State :=
  if s.busy then s.rejectRequest else runToIdle tickFuel (s.accept q todo)

/-- An illegal request word: while an operation runs it is dropped (R35); else it is accepted and refused at once, with
no byte sent and no time taken (R102). -/
def State.illegalRequest (s : State) (q : Word) : State :=
  if s.busy then s.rejectRequest else s.refuse q

/-- The frame of a Command in a running operation with the positions given: the frame takes the place of a frame at the
head of the list, whose report address it keeps, and comes before any other position, reported against byte 1. -/
def frameTodo (c : Command) : List Act → List Act
  | .frame _ rep :: rest => .frame c rep :: rest
  | rest => .frame c c.b1 :: rest

/-- A command frame. In a running operation it is that operation's next SendCommand, run to the end of the exchange
(R71, R141). With none running it is the pseudo-instruction that sends this one frame (R107), a SEND_COMMAND request
(log entry 2). -/
def State.sendFrame (s : State) (c : Command) : State :=
  match s.seq with
  | some r =>
    runFrame tickFuel ((frameTodo c r.todo).length - 1) ({ s with seq := some { r with todo := frameTodo c r.todo } }.tick)
  | none => s.request (sendWord c) (sendActs c)

/-- A 4-byte response. Where the running operation is at its parser, it is the response parsed (R166). Anywhere else
its bytes come from the sensor and go where R37 says (log entry 2). -/
def State.takeResponse (s : State) (e m l t : Byte) : State :=
  match s.seq with
  | some r =>
    match r.todo with
    | .parse _ :: _ => { s with seq := some { r with buf := [e, m, l, t] } }.tick
    | _ => s.arrive [e, m, l, t]
  | none => s.arrive [e, m, l, t]

end Sys2Proof.Machine
end

