-- ==== Sys2Proof/Machine/Frames.lean ====
section
/-! DEFINITION. The command frames: each is one SendCommand (R141) of its Command (R100). -/

namespace Sys2Proof.Machine

/-- SPELL: the reset spell frame FF FF 0D (R100, R170). -/
def execSpell (s : State) : Host.Outcome State Fault Refusal := .next (s.sendFrame ⟨0x00, 0xFF, 0xFF⟩)

/-- WINSEL0: FE 00 0D, select window 0 (R100, R161). -/
def execWinsel0 (s : State) : Host.Outcome State Fault Refusal := .next (s.sendFrame ⟨0x00, 0xFE, 0x00⟩)

/-- WINSEL1: FE 01 0D, select window 1 (R100, R161). -/
def execWinsel1 (s : State) : Host.Outcome State Fault Refusal := .next (s.sendFrame ⟨0x00, 0xFE, 0x01⟩)

/-- WR_UART_CTRL_ON: 88 03 0D (R43, R100). -/
def execWrUartCtrlOn (s : State) : Host.Outcome State Fault Refusal := .next (s.sendFrame ⟨0x00, 0x88, 0x03⟩)

/-- WR_UART_CTRL_OFF: 88 00 0D (R43, R100). -/
def execWrUartCtrlOff (s : State) : Host.Outcome State Fault Refusal := .next (s.sendFrame ⟨0x00, 0x88, 0x00⟩)

/-- WR_GLOB_FLASH_BACKUP: 8A 08 0D (R44, R100). -/
def execWrGlobFlashBackup (s : State) : Host.Outcome State Fault Refusal := .next (s.sendFrame ⟨0x00, 0x8A, 0x08⟩)

/-- WR_GLOB_SW_RESET: 8A 80 0D (R44, R100). -/
def execWrGlobSwReset (s : State) : Host.Outcome State Fault Refusal := .next (s.sendFrame ⟨0x00, 0x8A, 0x80⟩)

/-- WR_MODE_EXIT: 83 02 0D (R46, R100). -/
def execWrModeExit (s : State) : Host.Outcome State Fault Refusal := .next (s.sendFrame ⟨0x00, 0x83, 0x02⟩)

/-- WR_MSC_FLASH_TEST: 83 08 0D (R47, R100). -/
def execWrMscFlashTest (s : State) : Host.Outcome State Fault Refusal := .next (s.sendFrame ⟨0x00, 0x83, 0x08⟩)

/-- RD_MODE_MSC: 02 00 0D, 4 response bytes (R46, R47, R100). -/
def execRdModeMsc (s : State) : Host.Outcome State Fault Refusal := .next (s.sendFrame ⟨0x04, 0x02, 0x00⟩)

/-- RD_DIAG_STAT1: 04 00 0D, 4 response bytes (R48, R100). -/
def execRdDiagStat1 (s : State) : Host.Outcome State Fault Refusal := .next (s.sendFrame ⟨0x04, 0x04, 0x00⟩)

/-- RD_GLOB_CMD: 0A 00 0D, 4 response bytes (R45, R100). -/
def execRdGlobCmd (s : State) : Host.Outcome State Fault Refusal := .next (s.sendFrame ⟨0x04, 0x0A, 0x00⟩)

/-- RD_PROD0: 6A 00 0D, product-ID word 0, 4 response bytes (R49, R100). -/
def execRdProd0 (s : State) : Host.Outcome State Fault Refusal := .next (s.sendFrame ⟨0x04, 0x6A, 0x00⟩)

/-- RD_PROD1: 6C 00 0D, product-ID word 1, 4 response bytes (R49, R100). -/
def execRdProd1 (s : State) : Host.Outcome State Fault Refusal := .next (s.sendFrame ⟨0x04, 0x6C, 0x00⟩)

/-- RD_PROD2: 6E 00 0D, product-ID word 2, 4 response bytes (R49, R100). -/
def execRdProd2 (s : State) : Host.Outcome State Fault Refusal := .next (s.sendFrame ⟨0x04, 0x6E, 0x00⟩)

/-- RD_PROD3: 70 00 0D, product-ID word 3, 4 response bytes (R49, R100). -/
def execRdProd3 (s : State) : Host.Outcome State Fault Refusal := .next (s.sendFrame ⟨0x04, 0x70, 0x00⟩)

/-- RD_SER0: 74 00 0D, serial-number word 0, 4 response bytes (R49, R100). -/
def execRdSer0 (s : State) : Host.Outcome State Fault Refusal := .next (s.sendFrame ⟨0x04, 0x74, 0x00⟩)

/-- RD_SER1: 76 00 0D, serial-number word 1, 4 response bytes (R49, R100). -/
def execRdSer1 (s : State) : Host.Outcome State Fault Refusal := .next (s.sendFrame ⟨0x04, 0x76, 0x00⟩)

/-- RD_SER2: 78 00 0D, serial-number word 2, 4 response bytes (R49, R100). -/
def execRdSer2 (s : State) : Host.Outcome State Fault Refusal := .next (s.sendFrame ⟨0x04, 0x78, 0x00⟩)

/-- RD_SER3: 7A 00 0D, serial-number word 3, 4 response bytes (R49, R100). -/
def execRdSer3 (s : State) : Host.Outcome State Fault Refusal := .next (s.sendFrame ⟨0x04, 0x7A, 0x00⟩)

/-- WRITE_FRAME: a register write, `a v 0D`, no response (R97, R162). -/
def execWriteFrame (a v : Byte) (s : State) : Host.Outcome State Fault Refusal := .next (s.sendFrame ⟨0x00, a, v⟩)

/-- READ_FRAME: a register read, `a 00 0D`, 4 response bytes (R97, R99). -/
def execReadFrame (a : Byte) (s : State) : Host.Outcome State Fault Refusal := .next (s.sendFrame ⟨0x04, a, 0x00⟩)

/-- RAW_FRAME: any frame with any expected response length, unescaped (R96, R103). -/
def execRawFrame (len b1 b2 : Byte) (s : State) : Host.Outcome State Fault Refusal := .next (s.sendFrame ⟨len, b1, b2⟩)

/-- READ_RESPONSE: the 4-byte read response (R99, R166, R167). -/
def execReadResponse (echoedAddr msb lsb terminator : Byte) (s : State) : Host.Outcome State Fault Refusal :=
  .next (s.takeResponse echoedAddr msb lsb terminator)

end Sys2Proof.Machine
end

