-- ==== Sys2Proof/Machine/Operations.lean ====
section
/-! DEFINITION. The multi-step operations (43_operations.md). -/

namespace Sys2Proof.Machine

/-- SET_UART_AUTO_START (R203). -/
def execSetUartAutoStart (hi : BitVec 24) (f : BitVec 1) (s : State) : Host.Outcome State Fault Refusal :=
  .next (s.request (encode (.setUartAutoStart hi f)) setUartAutoStartActs)

/-- FLASH_BACKUP: command, poll, verify (R206). -/
def execFlashBackup (hi : BitVec 24) (f : BitVec 1) (s : State) : Host.Outcome State Fault Refusal :=
  .next (s.request (encode (.flashBackup hi f)) (flashBackupActs s.params))

/-- FLASH_TEST: command, poll, verify, readiness wait (R210). -/
def execFlashTest (hi : BitVec 24) (f : BitVec 1) (s : State) : Host.Outcome State Fault Refusal :=
  .next (s.request (encode (.flashTest hi f)) (flashTestActs s.params))

/-- WAIT_UNTIL_READY with the bound T in ms (R214). -/
def execWaitUntilReady (timeout : Half) (lo : Byte) (f : BitVec 1) (s : State) : Host.Outcome State Fault Refusal :=
  .next (s.request (encode (.waitUntilReady timeout lo f)) (waitUntilReadyActs timeout.toNat))

/-- SOFTWARE_RESET (R217). -/
def execSoftwareReset (hi : BitVec 24) (f : BitVec 1) (s : State) : Host.Outcome State Fault Refusal :=
  .next (s.request (encode (.softwareReset hi f)) softwareResetActs)

/-- EXIT_AUTO_MODE (R219). -/
def execExitAutoMode (hi : BitVec 24) (persist : BitVec 1) (s : State) : Host.Outcome State Fault Refusal :=
  .next (s.request (encode (.exitAutoMode hi persist)) (exitAutoModeActs s.params (persist == 1#1)))

/-- FULL_RESET (R224). -/
def execFullReset (hi : BitVec 24) (persist : BitVec 1) (s : State) : Host.Outcome State Fault Refusal :=
  .next (s.request (encode (.fullReset hi persist)) (fullResetActs s.params (persist == 1#1)))

/-- CONFIGURE: setUartAutoStart, then flashBackup (R228). -/
def execConfigure (hi : BitVec 24) (f : BitVec 1) (s : State) : Host.Outcome State Fault Refusal :=
  .next (s.request (encode (.configure hi f)) (configureActs s.params))

end Sys2Proof.Machine
end

