-- ==== Sys2Proof/Machine/RegisterAccess.lean ====
section
/-! DEFINITION. The reset spell and the register read as requests (41_register_access.md), and DETECT_IDENTITY (42_identity.md). -/

namespace Sys2Proof.Machine

/-- RESET_SENSOR: the reset spell, with no settling delay (R170, R171). -/
def execResetSensor (hi : BitVec 24) (f : BitVec 1) (s : State) : Host.Outcome State Fault Refusal :=
  .next (s.request (encode (.resetSensor hi f)) resetSpellActs)

/-- READ_REGISTER_WORD: select the window, read the register, the value in RDATA (R165, R168). -/
def execReadRegisterWord (hi : Half) (address : Byte) (window : BitVec 1) (s : State) :
    Host.Outcome State Fault Refusal :=
  .next (s.request (encode (.readRegisterWord hi address window)) (readRegisterActs s.params address window))

/-- DETECT_IDENTITY: eight words, decoded, aliased, atomic or nothing (R186). -/
def execDetectIdentity (hi : BitVec 24) (f : BitVec 1) (s : State) : Host.Outcome State Fault Refusal :=
  .next (s.request (encode (.detectIdentity hi f)) (detectIdentityActs s.params))

end Sys2Proof.Machine
end

