-- ==== Sys2Proof/Machine/Transport.lean ====
section
/-! DEFINITION. The transport requests OPEN, CLOSE, SEND_COMMAND, SEND_COMMANDS (40_transport.md), and the reserved request (R102). -/

namespace Sys2Proof.Machine

/-- RESERVED_OP0 and every other illegal word (R101, R102): refused, nothing sent. -/
def execReservedOp0 (w : Word) (s : State) : Host.Outcome State Fault Refusal :=
  .next (s.illegalRequest w)

/-- OPEN (R131 to R134). -/
def execOpen (hi : BitVec 24) (f : BitVec 1) (s : State) : Host.Outcome State Fault Refusal :=
  .next (s.request (encode (.openStream hi f)) [.openStream])

/-- CLOSE (R135). -/
def execClose (hi : BitVec 24) (f : BitVec 1) (s : State) : Host.Outcome State Fault Refusal :=
  .next (s.request (encode (.closeStream hi f)) [.closeStream])

/-- SEND_COMMAND: one raw Command, its response in RESP (R142). -/
def execSendCommand (len b2 b1 : Byte) (f : BitVec 1) (s : State) : Host.Outcome State Fault Refusal :=
  .next (s.request (encode (.sendCommand len b2 b1 f)) (sendActs ⟨len, b1, b2⟩))

/-- SEND_COMMANDS: the command list CMD0 to CMD(n-1), the concatenated responses in RESP (R148). A count over MAX_CMDS
is an illegal word (R101). -/
def execSendCommands (hi : Half) (n : Byte) (f : BitVec 1) (s : State) : Host.Outcome State Fault Refusal :=
  .next (if legalCount n then s.request (encode (.sendCommands hi n f)) (sendListActs (s.commandList n.toNat))
    else s.illegalRequest (encode (.sendCommands hi n f)))

end Sys2Proof.Machine
end

