-- ==== Sys2Proof/Machine/Dispatch.lean ====
section
/-! DEFINITION. One arm per instruction. -/

namespace Sys2Proof.Machine

def exec (i : Instr) (s : State) : Host.Outcome State Fault Refusal :=
  match i with
  | .reservedOp0 w => Sys2Proof.Machine.execReservedOp0 w s
  | .openStream hi f => Sys2Proof.Machine.execOpen hi f s
  | .closeStream hi f => Sys2Proof.Machine.execClose hi f s
  | .sendCommand len b2 b1 f => Sys2Proof.Machine.execSendCommand len b2 b1 f s
  | .sendCommands hi n f => Sys2Proof.Machine.execSendCommands hi n f s
  | .resetSensor hi f => Sys2Proof.Machine.execResetSensor hi f s
  | .readRegisterWord hi address window => Sys2Proof.Machine.execReadRegisterWord hi address window s
  | .detectIdentity hi f => Sys2Proof.Machine.execDetectIdentity hi f s
  | .setUartAutoStart hi f => Sys2Proof.Machine.execSetUartAutoStart hi f s
  | .flashBackup hi f => Sys2Proof.Machine.execFlashBackup hi f s
  | .flashTest hi f => Sys2Proof.Machine.execFlashTest hi f s
  | .waitUntilReady timeout lo f => Sys2Proof.Machine.execWaitUntilReady timeout lo f s
  | .softwareReset hi f => Sys2Proof.Machine.execSoftwareReset hi f s
  | .exitAutoMode hi persist => Sys2Proof.Machine.execExitAutoMode hi persist s
  | .fullReset hi persist => Sys2Proof.Machine.execFullReset hi persist s
  | .configure hi f => Sys2Proof.Machine.execConfigure hi f s
  | .spell => Sys2Proof.Machine.execSpell s
  | .winsel0 => Sys2Proof.Machine.execWinsel0 s
  | .winsel1 => Sys2Proof.Machine.execWinsel1 s
  | .wrUartCtrlOn => Sys2Proof.Machine.execWrUartCtrlOn s
  | .wrUartCtrlOff => Sys2Proof.Machine.execWrUartCtrlOff s
  | .wrGlobFlashBackup => Sys2Proof.Machine.execWrGlobFlashBackup s
  | .wrGlobSwReset => Sys2Proof.Machine.execWrGlobSwReset s
  | .wrModeExit => Sys2Proof.Machine.execWrModeExit s
  | .wrMscFlashTest => Sys2Proof.Machine.execWrMscFlashTest s
  | .rdModeMsc => Sys2Proof.Machine.execRdModeMsc s
  | .rdDiagStat1 => Sys2Proof.Machine.execRdDiagStat1 s
  | .rdGlobCmd => Sys2Proof.Machine.execRdGlobCmd s
  | .rdProd0 => Sys2Proof.Machine.execRdProd0 s
  | .rdProd1 => Sys2Proof.Machine.execRdProd1 s
  | .rdProd2 => Sys2Proof.Machine.execRdProd2 s
  | .rdProd3 => Sys2Proof.Machine.execRdProd3 s
  | .rdSer0 => Sys2Proof.Machine.execRdSer0 s
  | .rdSer1 => Sys2Proof.Machine.execRdSer1 s
  | .rdSer2 => Sys2Proof.Machine.execRdSer2 s
  | .rdSer3 => Sys2Proof.Machine.execRdSer3 s
  | .writeFrame a v => Sys2Proof.Machine.execWriteFrame a v s
  | .readFrame a => Sys2Proof.Machine.execReadFrame a s
  | .rawFrame len b1 b2 => Sys2Proof.Machine.execRawFrame len b1 b2 s
  | .readResponse echoedAddr msb lsb terminator => Sys2Proof.Machine.execReadResponse echoedAddr msb lsb terminator s

end Sys2Proof.Machine
end

