-- ==== Sys2Proof/Machine/Fetch.lean ====
section
/-! DEFINITION. What the block does next: the request the host writes, the frame or the response its running operation
is at, or a step with no instruction in it. -/

namespace Sys2Proof.Machine

/-- What a step of the machine runs. -/
inductive Fetched where
  /-- The instruction `i`, in the state `s`. -/
  | instr (i : Instr) (s : State)
  /-- No instruction: the step leads to `s`. -/
  | done (s : State)
deriving DecidableEq, Repr

/-- The next position of a running operation. A frame and a response that is complete are instructions; any other
position is one step of the sequencer. -/
def State.fetchRunning (s : State) (r : Run) : Fetched :=
  match r.todo with
  | .frame c _ :: _ => .instr (commandInstr c) s
  | .parse _ :: _ =>
    match r.buf with
    | e :: m :: l :: t :: _ => .instr (.readResponse e m l t) s
    | _ => .done s.tick
  | _ => .done s.tick

/-- The host's next access to the idle block. A write to OPREQ is a request (R91); other writes go to the configuration
registers (R20); without an access only the environment acts. -/
def State.fetchIdle (s : State) : Fetched :=
  match s.host with
  | .write index v :: rest =>
    if index = opreqIndex then .instr (decodeRequest v) { s with host := rest }
    else .done ({ s with host := rest }.writeConfig index v)
  | .wait ms :: rest => .done { s.environment with host := rest, now := s.environment.now + ms }
  | .reset :: rest => .done ({ s.environment with host := rest }.blockReset s.nextDraw.resetSends)
  | [] => .done s.tick

/-- What the next step runs. -/
def State.fetch (s : State) : Fetched :=
  match s.seq with
  | some r => s.fetchRunning r
  | none => s.fetchIdle

/-- A word of the opcode table placed where the next step fetches: a request as the host's next write to the idle
block's OPREQ, a command word as the next frame of a running SEND_COMMAND (log entry 2). -/
def State.placeWord (s : State) (w : Word) : State :=
  match tableFormat w with
  | .cmd => { s with seq := some (startRun 3#4 (sendActs (wordCommand w))) }
  | _ => { s with seq := none, host := .write opreqIndex w :: s.host }

end Sys2Proof.Machine
end

