-- ==== Sys2Proof/Machine/Step.lean ====
section
/-! DEFINITION. One step of the machine. -/

namespace Sys2Proof.Machine

/-- One step: fetch, and run the instruction fetched if there is one. -/
def step (s : State) : Host.Outcome State Fault Refusal :=
  match s.fetch with
  | .instr i t => exec i t
  | .done t => .next t

/-- `s` with the table word `w` placed where the next step fetches. Every row of the opcode table is one 32-bit word. -/
def State.withFetchWord (s : State) (_nbits w : Nat) : State := s.placeWord (BitVec.ofNat 32 w)

end Sys2Proof.Machine
end

