-- ==== Sys2Proof/Safety.lean ====
section
/-! DEFINITION. What counts as a coherent state, as a calm run and as a run beat by beat, and the registers an
operation leaves, in the terms the statements use. -/

namespace Sys2Proof

/-- A request with the fields that its operation does not use set to 0 (R92, R95). Any other instruction is itself. -/
def Instr.withoutIgnored : Instr → Instr
  | .reservedOp0 w => .reservedOp0 w
  | .openStream _ _ => .openStream 0#24 0#1
  | .closeStream _ _ => .closeStream 0#24 0#1
  | .sendCommand len b2 b1 _ => .sendCommand len b2 b1 0#1
  | .sendCommands _ n _ => .sendCommands 0#16 n 0#1
  | .resetSensor _ _ => .resetSensor 0#24 0#1
  | .readRegisterWord _ address window => .readRegisterWord 0#16 address window
  | .detectIdentity _ _ => .detectIdentity 0#24 0#1
  | .setUartAutoStart _ _ => .setUartAutoStart 0#24 0#1
  | .flashBackup _ _ => .flashBackup 0#24 0#1
  | .flashTest _ _ => .flashTest 0#24 0#1
  | .waitUntilReady timeout _ _ => .waitUntilReady timeout 0#8 0#1
  | .softwareReset _ _ => .softwareReset 0#24 0#1
  | .exitAutoMode _ persist => .exitAutoMode 0#24 persist
  | .fullReset _ persist => .fullReset 0#24 persist
  | .configure _ _ => .configure 0#24 0#1
  | .spell => .spell
  | .winsel0 => .winsel0
  | .winsel1 => .winsel1
  | .wrUartCtrlOn => .wrUartCtrlOn
  | .wrUartCtrlOff => .wrUartCtrlOff
  | .wrGlobFlashBackup => .wrGlobFlashBackup
  | .wrGlobSwReset => .wrGlobSwReset
  | .wrModeExit => .wrModeExit
  | .wrMscFlashTest => .wrMscFlashTest
  | .rdModeMsc => .rdModeMsc
  | .rdDiagStat1 => .rdDiagStat1
  | .rdGlobCmd => .rdGlobCmd
  | .rdProd0 => .rdProd0
  | .rdProd1 => .rdProd1
  | .rdProd2 => .rdProd2
  | .rdProd3 => .rdProd3
  | .rdSer0 => .rdSer0
  | .rdSer1 => .rdSer1
  | .rdSer2 => .rdSer2
  | .rdSer3 => .rdSer3
  | .writeFrame a v => .writeFrame a v
  | .readFrame a => .readFrame a
  | .rawFrame len b1 b2 => .rawFrame len b1 b2
  | .readResponse e m l t => .readResponse e m l t

/-- The Command in the word of a frame instruction (R100). -/
def Instr.command (i : Instr) : Command := wordCommand (encode i)

/-- The three bytes of a Command on the wire (R97). -/
def Command.bytes (c : Command) : List Byte := [c.b1, c.b2, 0x0D]

/-- The product ID of a raw product-ID string: the value of its first row in ALIAS_TABLE, or, where no row has it as key,
the string itself (R185). -/
def Params.names (p : Params) (raw product : List Byte) : Prop :=
  (∃ before after, p.aliasTable = before ++ (raw, product) :: after ∧ ∀ row ∈ before, row.1 ≠ raw) ∨
  (product = raw ∧ ∀ row ∈ p.aliasTable, row.1 ≠ raw)

end Sys2Proof

namespace Sys2Proof.Machine

/-! ## Coherent states -/

/-- STATUS and the result registers agree as R21, R25 to R29, R262 and R263 say, once an operation has completed. -/
def State.reportCoherent (s : State) : Prop :=
  (s.result = true ↔ s.reason = .ok) ∧
  (s.reason = .transport ↔ ∃ k, s.err = .transport k) ∧
  (s.reason = .refused ↔ s.err = .illegalOp) ∧
  (s.failAddr ≠ none → s.reason = .transport) ∧
  (s.valid = true → s.result = true ∧ (s.lastOp = 6#4 ∨ s.lastOp = 7#4)) ∧
  (s.ftWarn = true → s.lastOp = 14#4) ∧
  (s.rdata ≠ 0#16 → s.valid = true ∧ s.lastOp = 6#4) ∧
  (s.idLens ≠ 0#32 → s.valid = true ∧ s.lastOp = 7#4) ∧
  (s.respLen ≠ 0#32 → s.result = true ∧ (s.lastOp = 3#4 ∨ s.lastOp = 4#4))

/-- The STATUS fields between the acceptance of a request, or a block reset, and the next completion (R21, R33, R301). -/
def State.statusCleared (s : State) : Prop :=
  s.result = false ∧ s.valid = false ∧ s.ftWarn = false ∧ s.err = .noError ∧ s.reason = .ok

/-- The receive FIFO is within its depth (R37). -/
def State.fifoWithinDepth (s : State) : Prop := ∀ n, s.params.rxFifoDepth = some n → s.rx.length ≤ n

/-- The strings of an identity record fit their registers of ID_CAP = 16 bytes (R20, R185). -/
def Identity.fits (i : Identity) : Prop :=
  i.raw.length ≤ idCap ∧ i.product.length ≤ idCap ∧ i.serial.length ≤ idCap

/-- A coherent state: the window bytes are in canonical form and stand in the byte-string registers of R20 only, BUSY
and DONE are never both 1, the running operation is the one LAST_OP names and its identity record fits the registers,
STATUS is cleared until a completion and coherent after it, RESP_LEN is within RESP, the FIFO is within its depth. -/
structure State.Coherent (s : State) : Prop where
  window : Memory.wf s.win
  placed : ∀ c ∈ s.win, (0x050 ≤ c.1 ∧ c.1 < 0x080) ∨ (0x800 ≤ c.1 ∧ c.1 < 0xFF8)
  notBoth : s.busy = true → s.done = false
  lastOp : ∀ r, s.seq = some r → r.op = s.lastOp
  ident : ∀ r i, s.seq = some r → r.ident = some i → i.fits
  cleared : s.done = false → s.statusCleared
  reported : s.done = true → s.reportCoherent
  respBound : s.respLen.toNat ≤ respCap
  fifo : s.fifoWithinDepth

/-- `t` is a state right after a block reset of `s`, whatever `s` was doing: every piece of the block's state has its
reset value, the time base does not go back, and of the TX trace at most the bytes not flushed yet are missing (R301,
R302; log entry 7). -/
def State.resetTo (s t : State) : Prop :=
  t.seq = none ∧ t.statusWord = 0#32 ∧ t.opreq = 0#32 ∧ t.rdata = 0#16 ∧ t.failAddr = none ∧ t.respLen = 0#32 ∧
  t.idLens = 0#32 ∧ t.win = [] ∧ t.cmds = Vector.replicate 8 0#32 ∧ t.cfgBaud = 460800#32 ∧
  t.cfgReadTimeout = 3000#32 ∧ t.cfgPort = 0#32 ∧
  t.stream = { isOpen := false, timeout := 3000#32, baud := 460800#32, port := 0#32 } ∧ t.rx = [] ∧
  s.now ≤ t.now ∧ ∃ k, s.tx.length - s.txPending ≤ k ∧ t.tx = s.tx.take k

/-! ## Calm runs -/

/-- The next `n` steps are calm, as under the reference timing of D33 with every answer there in time: the host leaves
the block alone while it runs, no time passes but the sleeps, nothing fails, no byte arrives; `rest` are the draws after
them. -/
structure State.Calm (s : State) (n : Nat) (rest : List Draw) : Prop where
  meddle : s.meddle = []
  script : s.script = List.replicate n Draw.quiet ++ rest
  held : s.held = []
  fifo : s.fifoWithinDepth

/-- The block is idle, the stream is open, and the next `n` steps are calm. -/
structure State.Ready (s : State) (n : Nat) (rest : List Draw) : Prop where
  idle : s.seq = none
  isOpen : s.stream.isOpen = true
  calm : s.Calm n rest

/-- The host makes no block reset while an operation runs. -/
def State.noReset (s : State) : Prop := ∀ a ∈ s.meddle, a ≠ .reset

/-! ## What an operation leaves -/

/-- What frames that were sent and answered leave: the bytes `sent` handed over and flushed, `rx` what is left in the FIFO
of the answers and the bytes after them, `ms` milliseconds passed, `rest` the draws left. Everything else is as in
`s`. -/
def State.exchanged (s : State) (rest : List Draw) (sent rx : List Byte) (ms : Nat) : State :=
  { s with script := rest, tx := s.tx ++ sent, txPending := 0, rx := rx, now := s.now + ms }

/-- The six bytes of a register read: the window select, then the read frame (R161, R62). -/
def State.readBytes (s : State) (window a : Byte) : List Byte := [0xFE, window, 0x0D, a, s.params.readPad, 0x0D]

/-- A state whose block has accepted the request word `q` and completed it with the report `rep`: OPREQ and LAST_OP of
the request, REJECT 0, DONE 1, and every result register as `rep` says (R33, R34). Everything else is as in `s`. -/
def State.reports (s : State) (q : Word) (rep : Report) (ftWarn : Bool) : State :=
  { s with
    opreq := q
    lastOp := q.extractLsb' 0 4
    reject := false
    done := true
    result := rep.result
    valid := rep.valid
    ftWarn := ftWarn
    err := rep.err
    reason := rep.reason
    rdata := rep.rdata
    failAddr := rep.failAddr
    respLen := BitVec.ofNat 32 rep.resp.length
    idLens := match rep.ident with
      | some i => 0#8 ++ BitVec.ofNat 8 i.serial.length ++ BitVec.ofNat 8 i.product.length ++
          BitVec.ofNat 8 i.raw.length
      | none => 0#32
    win := windowImage rep.ident rep.resp
    seq := none }

/-- The report of a Pass with no value: RESULT = 1, everything else 0. -/
def Report.passed : Report :=
  { result := true, valid := false, err := .noError, reason := .ok, rdata := 0#16, failAddr := none, resp := [],
    ident := none }

/-- The report of a Fail with a transport error: RESULT = 0, REASON = TRANSPORT, ERR and FAIL_ADDR as given. -/
def Report.transportFailed (k : TransportErr) (rep : Option Byte) : Report :=
  { result := false, valid := false, err := .transport k, reason := .transport, rdata := 0#16, failAddr := rep,
    resp := [], ident := none }

/-- The report of a Fail with no transport error: RESULT = 0, the REASON, ERR = NONE, FAIL_ADDR = 0. -/
def Report.failed (reason : Reason) : Report :=
  { result := false, valid := false, err := .noError, reason := reason, rdata := 0#16, failAddr := none, resp := [],
    ident := none }

/-- The report of an illegal request: RESULT = 0, ERR = ILLEGAL_OP, REASON = REFUSED, everything else 0 (R102). -/
def Report.refused : Report :=
  { result := false, valid := false, err := .illegalOp, reason := .refused, rdata := 0#16, failAddr := none,
    resp := [], ident := none }

/-- One answer of the sensor to a register read: echo, value, terminator (R99). -/
structure Answer where
  echo : Byte
  value : Half
  terminator : Byte
deriving DecidableEq, Repr

/-- The bytes of an answer, in arrival order: `[echoedAddr, MSB, LSB, terminator]` (R99). -/
def Answer.bytes (a : Answer) : List Byte :=
  [a.echo, a.value.extractLsb' 8 8, a.value.extractLsb' 0 8, a.terminator]

/-- The report of a Fail, by the mapping of R263. -/
def Failure.report : Failure → Report
  | .transport k rep => .transportFailed k rep
  | .pollExpired => .failed .pollExpired
  | .verifyFlagSet => .failed .verifyFlagSet
  | .notConfirmed => .failed .notConfirmed
  | .refused => .refused
  | .decode => .failed .decode

/-- The report of an operation with no value that passes (`none`) or fails (R263). -/
def outcomeReport : Option Failure → Report
  | none => .passed
  | some f => f.report

/-! ## Runs beat by beat: what happens at each step, failures included -/

/-- What happens at one step of a running operation whose host leaves it alone. -/
inductive Beat where
  /-- A step that neither the line nor the clock shows. -/
  | quiet
  /-- The platform takes a byte (R136). -/
  | byte (b : Byte)
  /-- The flush completes (R137). -/
  | flush
  /-- The platform fails the byte or the flush (R136). -/
  | fails
  /-- A byte of the sensor arrives and is taken (R138). -/
  | gets (b : Byte)
  /-- `ms` milliseconds pass with no byte (R138). -/
  | silence (ms : Nat)
  /-- The block sleeps (R14). -/
  | sleep (ms : Nat)
deriving DecidableEq, Repr

/-- The draw of a beat. -/
def Beat.draw : Beat → Draw
  | .gets b => Draw.answer [b]
  | .silence ms => Draw.after ms
  | .fails => Draw.ioFailure
  | .quiet => Draw.quiet
  | .byte _ => Draw.quiet
  | .flush => Draw.quiet
  | .sleep _ => Draw.quiet

/-- What a beat leaves on the line and the clock: a byte handed over joins the TX trace, a flush leaves nothing pending,
silence and sleep take their time. Everything else is as in `s`. -/
def State.after (s : State) : Beat → State
  | .byte b => { s with tx := s.tx ++ [b], txPending := s.txPending + 1 }
  | .flush => { s with txPending := 0 }
  | .silence ms => { s with now := s.now + ms }
  | .sleep ms => { s with now := s.now + ms }
  | .quiet => s
  | .fails => s
  | .gets _ => s

/-- What a run of beats leaves on the line and the clock. -/
def State.along (s : State) (beats : List Beat) : State := beats.foldl State.after s

/-- The block is idle, its stream open, its FIFO empty and able to hold a byte, the host leaves it alone, and the next
draws are those of the beats; `rest` are the draws after them. -/
structure State.Follows (s : State) (beats : List Beat) (rest : List Draw) : Prop where
  idle : s.seq = none
  isOpen : s.stream.isOpen = true
  meddle : s.meddle = []
  held : s.held = []
  rx : s.rx = []
  room : ∀ n, s.params.rxFifoDepth = some n → 0 < n
  script : s.script = beats.map Beat.draw ++ rest

/-- Where the draws are those of the beats, the instruction completes with the report, having done on the line and the
clock what the beats say. A Pass takes one step more, its completion; a Fail completes at its last beat (R34, R263). -/
def State.Completes (s : State) (i : Instr) (beats : List Beat) (rep : Report) (ftWarn : Bool) : Prop :=
  let all := if rep.result then beats ++ [.quiet] else beats
  ∀ rest, s.Follows all rest →
    exec i s = .next (({ s with script := rest }.along all).reports (encode i) rep ftWarn)

/-! ### Frames and register reads -/

/-- A frame that is sent: the check that the stream is open, its three bytes, the flush (R136, R137, R141). -/
def frameBeats (b1 b2 : Byte) : List Beat := [.quiet, .byte b1, .byte b2, .byte 0x0D, .flush]

/-- A frame whose byte `k + 1` the platform fails, or, for `k = 3`, whose flush (R136, R141). -/
def frameFailsBeats (b1 b2 : Byte) (k : Nat) : List Beat :=
  .quiet :: (([b1, b2, 0x0D] : List Byte).take k).map .byte ++ [.fails]

/-- How a register read can end (R165, R168). -/
inductive Reading where
  /-- With an answer. -/
  | answered (a : Answer)
  /-- After some bytes of an answer no byte comes for `ms` milliseconds: TIMEOUT. -/
  | short (part : List Byte) (ms : Nat)
  /-- The platform fails byte `k + 1`, or for `k = 3` the flush, of the window select: IO. -/
  | selectFails (k : Nat)
  /-- The platform fails byte `k + 1`, or for `k = 3` the flush, of the read frame: IO. -/
  | readFails (k : Nat)
deriving DecidableEq, Repr

/-- A reading that can be: an answer that stays short has fewer than 4 bytes, and its silence lasts the timeout; a frame
has three bytes and a flush to fail. -/
def Reading.possible (timeout : Nat) : Reading → Prop
  | .answered _ => True
  | .short part ms => part.length < 4 ∧ timeout ≤ ms
  | .selectFails k => k ≤ 3
  | .readFails k => k ≤ 3

/-- The beats of the read of address `a` in `window` (R161, R165): the select, the read frame, the answer, the parser. -/
def Reading.beats (pad window a : Byte) : Reading → List Beat
  | .answered ans => frameBeats 0xFE window ++ frameBeats a pad ++ ans.bytes.map .gets ++ [.quiet]
  | .short part ms => frameBeats 0xFE window ++ frameBeats a pad ++ part.map .gets ++ [.silence ms]
  | .selectFails k => frameFailsBeats 0xFE window k
  | .readFails k => frameBeats 0xFE window ++ frameFailsBeats a pad k

/-- The failure of the read of address `a`, reported against that address (R165, R168). -/
def Reading.failure (a : Byte) : Reading → Option Failure
  | .answered _ => none
  | .short _ _ => some (.transport .timeout (some a))
  | .selectFails _ => some (.transport .io (some a))
  | .readFails _ => some (.transport .io (some a))

/-- The time a reading takes. -/
def Reading.ms : Reading → Nat
  | .short _ ms => ms
  | .answered _ => 0
  | .selectFails _ => 0
  | .readFails _ => 0

/-- A reading, and the step that looks at its value where it has one. -/
def Reading.tested (pad window a : Byte) (r : Reading) : List Beat :=
  r.beats pad window a ++ if r.failure a = none then [.quiet] else []

/-! ### Polls -/

/-- How a poll goes (R201): its attempts that do not end it, and the answer that does, or no such answer within the
bound. -/
structure PollRun where
  early : List Reading
  ready : Option Answer
deriving DecidableEq, Repr

/-- The time of attempts that do not end a poll, each with the sleep after it (R201). -/
def attemptsMs (interval : Nat) (early : List Reading) : Nat := (early.map (fun r => r.ms + interval)).sum

/-- A poll that can be (R201, R202): an attempt does not end it where its answer has the bit set or its read fails; the
bound is checked before every attempt, the time of the attempts before it being less; it expires at the first check that
finds the bound reached. -/
def PollRun.possible (timeout bit interval bound : Nat) (p : PollRun) : Prop :=
  (∀ r ∈ p.early, r.possible timeout ∧ ∀ a, r = .answered a → a.value.getLsbD bit = true) ∧
  match p.ready with
  | some a => a.value.getLsbD bit = false ∧ attemptsMs interval p.early < bound
  | none => bound ≤ attemptsMs interval p.early ∧
      ∀ front last, p.early = front ++ [last] → attemptsMs interval front < bound

/-- The beats of a poll of address `a` in window 1: its start; each attempt with the check of the bound before it and the
sleep after it; the attempt that ends it, or the check that finds the bound reached (R201). -/
def PollRun.beats (pad a : Byte) (interval : Nat) (p : PollRun) : List Beat :=
  .quiet :: p.early.flatMap (fun r => .quiet :: r.tested pad 0x01 a ++ [.sleep interval]) ++
    match p.ready with
    | some ans => .quiet :: (Reading.answered ans).tested pad 0x01 a
    | none => [.quiet]

/-- A poll that expires fails (R201). -/
def PollRun.failure (p : PollRun) : Option Failure := if p.ready = none then some .pollExpired else none

/-! ### The parts of the multi-step operations -/

/-- The two frames of a register write of `v` to `a` in `window`, and where they fail (R162): `none`, not at all;
`some (second, k)`, at byte `k + 1`, or for `k = 3` the flush, of the select or of the second frame. -/
def writeBeats (window a v : Byte) : Option (Bool × Nat) → List Beat
  | none => frameBeats 0xFE window ++ frameBeats a v
  | some (false, k) => frameFailsBeats 0xFE window k
  | some (true, k) => frameBeats 0xFE window ++ frameFailsBeats a v k

/-- The failure of a register write, reported against byte 1 of the frame that failed (R162). -/
def writeFailure (a : Byte) : Bool × Nat → Failure
  | (false, _) => .transport .io (some 0xFE)
  | (true, _) => .transport .io (some a)

/-- What flashBackup and flashTest have in common (R206, R210): the register written and its value, the register polled
and its bit, the bit of DIAG_STAT1 that must be clear. -/
structure FlashJob where
  command : Byte
  value : Byte
  pollAddr : Byte
  pollBit : Nat
  verifyBit : Nat
deriving DecidableEq, Repr

/-- flashBackup (R206): FLASH_BACKUP to GLOB_CMD, GLOB_CMD bit 3 until it is clear, DIAG_STAT1 bit 0. -/
def FlashJob.backup : FlashJob := { command := 0x8A, value := 0x08, pollAddr := 0x0A, pollBit := 3, verifyBit := 0 }

/-- flashTest (R210): FLASH_TEST to MSC_CTRL, MSC_CTRL bit 10 until it is clear, DIAG_STAT1 bit 2. -/
def FlashJob.test : FlashJob := { command := 0x83, value := 0x08, pollAddr := 0x02, pollBit := 10, verifyBit := 2 }

/-- How a flashBackup goes, or a flashTest up to its verify (R206, R210). -/
inductive FlashRun where
  /-- A frame of its command fails. -/
  | commandFails (place : Bool × Nat)
  /-- Its poll expires. -/
  | expires (early : List Reading)
  /-- Its poll ends with `ready`, and the verify reads. -/
  | verified (early : List Reading) (ready : Answer) (verify : Reading)
deriving DecidableEq, Repr

/-- A flash run that can be. -/
def FlashRun.possible (timeout : Nat) (job : FlashJob) : FlashRun → Prop
  | .commandFails f => f.2 ≤ 3
  | .expires early => PollRun.possible timeout job.pollBit 100 5000 ⟨early, none⟩
  | .verified early g v => PollRun.possible timeout job.pollBit 100 5000 ⟨early, some g⟩ ∧ v.possible timeout

/-- The beats of a flash run (R206, R210). -/
def FlashRun.beats (pad : Byte) (job : FlashJob) : FlashRun → List Beat
  | .commandFails f => writeBeats 0x01 job.command job.value (some f)
  | .expires early => writeBeats 0x01 job.command job.value none ++ PollRun.beats pad job.pollAddr 100 ⟨early, none⟩
  | .verified early g v => writeBeats 0x01 job.command job.value none ++
      PollRun.beats pad job.pollAddr 100 ⟨early, some g⟩ ++ v.tested pad 0x00 0x04

/-- How a flash run fails: with the transport error of its command or of its verify, with POLL_EXPIRED, or with
VERIFY_FLAG_SET where the verify finds its bit set (R206, R210). -/
def FlashRun.failure (job : FlashJob) : FlashRun → Option Failure
  | .commandFails f => some (writeFailure job.command f)
  | .expires _ => some .pollExpired
  | .verified _ _ (.answered d) => if d.value.getLsbD job.verifyBit then some .verifyFlagSet else none
  | .verified _ _ v => v.failure 0x04

/-- A flashTest with the readiness wait that follows a clear verify, whose result is ignored (R210, R212). -/
structure TestRun where
  flash : FlashRun
  wait : PollRun
deriving DecidableEq, Repr

/-- A flashTest that can be. -/
def TestRun.possible (timeout : Nat) (t : TestRun) : Prop :=
  t.flash.possible timeout .test ∧ (t.flash.failure .test = none → t.wait.possible timeout 10 50 2000)

/-- The failure of a flashTest is that of its flash run (R210, R212). -/
def TestRun.failure (t : TestRun) : Option Failure := t.flash.failure .test

/-- The beats of a flashTest (R210): after a clear verify it enters the wait, and leaves it unless the wait expires. -/
def TestRun.beats (pad : Byte) (t : TestRun) : List Beat :=
  t.flash.beats pad .test ++
    if t.failure = none then
      .quiet :: t.wait.beats pad 0x0A 50 ++ (if t.wait.ready = none then [] else [.quiet])
    else []

/-- How a softwareReset goes (R217). -/
inductive ResetRun where
  /-- A frame of its command fails. -/
  | commandFails (place : Bool × Nat)
  /-- Its command is sent, and it waits. -/
  | polled (wait : PollRun)
deriving DecidableEq, Repr

/-- A softwareReset that can be (R217). -/
def ResetRun.possible (timeout : Nat) : ResetRun → Prop
  | .commandFails f => f.2 ≤ 3
  | .polled wait => wait.possible timeout 10 50 7000

/-- The beats of a softwareReset (R217). -/
def ResetRun.beats (pad : Byte) : ResetRun → List Beat
  | .commandFails f => writeBeats 0x01 0x8A 0x80 (some f)
  | .polled wait => writeBeats 0x01 0x8A 0x80 none ++ wait.beats pad 0x0A 50

/-- How a softwareReset fails (R217). -/
def ResetRun.failure : ResetRun → Option Failure
  | .commandFails f => some (writeFailure 0x8A f)
  | .polled wait => wait.failure

/-- The closing select of window 0, which may fail without consequence (R186, R219, R268): `none`, it is sent; `some k`,
the platform fails its byte `k + 1` or, for `k = 3`, its flush. -/
def courtesyBeats : Option Nat → List Beat
  | none => .quiet :: frameBeats 0xFE 0x00 ++ [.quiet]
  | some k => .quiet :: frameFailsBeats 0xFE 0x00 k

/-- A closing select that can be. -/
def courtesyPossible (c : Option Nat) : Prop := ∀ k, c = some k → k ≤ 3

/-- exitAutoMode up to its flash backup, its MODE_CTRL read confirmed by the answer `m` (R219): the mode-exit write in
window 0, 50 ms, the read with no select of its own, the parser, the confirmation, the clear of UART_CTRL, which may
fail. -/
def modeExitBeats (pad : Byte) (m : Answer) (clear : Option (Bool × Nat)) : List Beat :=
  writeBeats 0x00 0x83 0x02 none ++ [.sleep 50] ++ frameBeats 0x02 pad ++ m.bytes.map .gets ++ [.quiet, .quiet] ++
    writeBeats 0x01 0x88 0x00 clear

/-- The reset spell (R170). -/
def spellBeats : List Beat := frameBeats 0xFF 0xFF ++ frameBeats 0xFF 0xFF ++ frameBeats 0xFF 0xFF

/-- A reset spell whose frame `j + 1` the platform fails at byte `k + 1` or, for `k = 3`, at its flush (R136, R170). -/
def spellFailsBeats (j k : Nat) : List Beat :=
  (List.replicate j (frameBeats 0xFF 0xFF)).flatten ++ frameFailsBeats 0xFF 0xFF k

/-- How a setUartAutoStart goes (R203). -/
inductive ArmRun where
  /-- The platform fails frame `j + 1` of the spell. -/
  | spellFails (j k : Nat)
  /-- A frame of its write fails. -/
  | commandFails (place : Bool × Nat)
  /-- It passes. -/
  | armed
deriving DecidableEq, Repr

/-- A setUartAutoStart that can be (R203). -/
def ArmRun.possible : ArmRun → Prop
  | .spellFails j k => j ≤ 2 ∧ k ≤ 3
  | .commandFails f => f.2 ≤ 3
  | .armed => True

/-- The beats of a setUartAutoStart (R203). -/
def ArmRun.beats : ArmRun → List Beat
  | .spellFails j k => spellFailsBeats j k
  | .commandFails f => spellBeats ++ [.sleep 100] ++ writeBeats 0x01 0x88 0x03 (some f)
  | .armed => spellBeats ++ [.sleep 100] ++ writeBeats 0x01 0x88 0x03 none

/-- How a setUartAutoStart fails (R203). -/
def ArmRun.failure : ArmRun → Option Failure
  | .spellFails _ _ => some (.transport .io (some 0xFF))
  | .commandFails f => some (writeFailure 0x88 f)
  | .armed => none

/-- FULL_RESET after its select of window 0 or its exitAutoMode (R224): the spell, 100 ms, the flashTest, whose failure
ends nothing (R226), the softwareReset, and 800 ms where that passes (R227). -/
def rebootBeats (pad : Byte) (t : TestRun) (r : ResetRun) : List Beat :=
  spellBeats ++ [.sleep 100, .quiet] ++ t.beats pad ++ (if t.failure = none then [.quiet] else []) ++ r.beats pad ++
    (if r.failure = none then [.sleep 800] else [])

end Sys2Proof.Machine
end

