-- ==== Sys2Proof/Certificates/Slice0/Obligations.lean ====
section
/-! DEFINITION. The statements for the provers, from the numbered rules of the spec. A statement about a request is about
an idle block; `State.Calm` says that the platform, the host and the clock do nothing of their own at the steps the
request takes, and the FIFO of the state holds the sensor's answers; `State.Completes` says what happens at each step
instead, failures included. -/

open Sys2Proof Sys2Proof.Machine

/-! ## Encodings -/

/-- Decoding the word of a well-formed instruction in its format gives the instruction back, for every instruction and
every operand (R91, R94, R95, R99, R100). -/
def Obligations.DecodeEncodeAgree : Prop :=
  ∀ i : Instr, i.wellFormed = true → decodeAs i.format (encode i) = .ok i

/-- Every word has its instruction: every 32-bit word is a request word, which decodes to a well-formed request whose word
it is, ignored bits and all (R91, R92, R101); every Command is one frame row of the opcode table, whose word is
`LEN << 24 | B1 << 16 | B2 << 8 | 0x0D` (R97, R100). -/
def Obligations.EveryWordEncodesBack : Prop :=
  (∀ w : Word, (decodeRequest w).wellFormed = true ∧ (decodeRequest w).format = .opreq ∧
    encode (decodeRequest w) = w) ∧
  (∀ c : Command, (commandInstr c).wellFormed = true ∧ (commandInstr c).format = .cmd ∧
    encode (commandInstr c) = c.len ++ c.b1 ++ c.b2 ++ 0x0D#8)

/-- R101: a request word is illegal (it decodes to the reserved request, which is refused) exactly when OP = 0x0, or
RSV ≠ 0, or OP = SEND_COMMANDS with A > 8. -/
def Obligations.IllegalRequestWords : Prop :=
  ∀ w : Word, decodeRequest w = .reservedOp0 w ↔
    w.extractLsb' 0 4 = 0x0#4 ∨ w.extractLsb' 5 3 ≠ 0#3 ∨
      (w.extractLsb' 0 4 = 0x4#4 ∧ 8 < (w.extractLsb' 8 8).toNat)

/-- Ten words of the spec's own tables, seven requests, two command words and a response, decode to the instructions they
stand for; a command word whose last byte is not the terminator 0x0D is refused (R94, R95, R99, R100, 95_test_vectors.md section 2.1). -/
def Obligations.SpecWordsDecode : Prop :=
  decodeRequest 0x00000A16#32 = .readRegisterWord 0x0000 0x0A 1#1 ∧
  decodeRequest 0xFFFFFF06#32 = .readRegisterWord 0xFFFF 0xFF 0#1 ∧
  decodeRequest 0x04000A03#32 = .sendCommand 0x04 0x00 0x0A 0#1 ∧
  decodeRequest 0x00000804#32 = .sendCommands 0x0000 0x08 0#1 ∧
  decodeRequest 0x00000904#32 = .reservedOp0 0x00000904#32 ∧
  decodeRequest 0x1B58000B#32 = .waitUntilReady 7000#16 0x00 0#1 ∧
  decodeRequest 0x0000001E#32 = .fullReset 0#24 1#1 ∧
  decodeAs .cmd 0x0083020D#32 = .ok .wrModeExit ∧
  decodeAs .cmd 0x0402000D#32 = .ok .rdModeMsc ∧
  decodeAs .cmd 0x0083020A#32 = .error .noTerminator ∧
  decodeBytes .rsp4 [0x0A, 0x04, 0x00, 0x0D] = .ok (.readResponse 0x0A 0x04 0x00 0x0D)

/-! ## The machine -/

/-- A step runs the instruction that the block is at: the request the host writes to the idle block's OPREQ, the frame
the running operation sends next, the response its parser takes next. At any other position of a running operation the
step is one step of the sequencer. That a frame and a response are instructions of their own is the model's choice (log
entry 2). -/
def Obligations.StepRunsTheDecodedInstruction : Prop :=
  (∀ (s : State) (v : Word) (h : List HostAccess) (i : Instr), s.seq = none → s.host = .write 0#10 v :: h →
    decodeAs .opreq v = .ok i → step s = exec i { s with host := h }) ∧
  (∀ (s : State) (r : Run) (c : Command) (rep : Byte) (rest : List Act) (i : Instr), s.seq = some r →
    r.todo = .frame c rep :: rest → decodeAs .cmd (commandWord c) = .ok i → step s = exec i s) ∧
  (∀ (s : State) (r : Run) (rep : Byte) (rest : List Act) (i : Instr), s.seq = some r → r.todo = .parse rep :: rest →
    decodeBytes .rsp4 r.buf = .ok i → step s = exec i s) ∧
  (∀ (s : State) (r : Run), s.seq = some r →
    (∀ c rep rest, r.todo ≠ .frame c rep :: rest) → (∀ rep rest, r.todo = .parse rep :: rest → r.buf.length < 4) → step s = .next s.tick)

/-- R301: every piece of the block's state has its reset value, right after reset and after a block reset at any state;
the time base is not reset. -/
def Obligations.BlockResetValues : Prop :=
  ∀ (s : State) (k : Nat) (t : State), (t = State.reset ∨ t = s.blockReset k) →
    t.opreq = 0#32 ∧ t.statusWord = 0#32 ∧ t.rdata = 0#16 ∧ t.failAddrWord = 0#32 ∧ t.cfgBaud = 460800#32 ∧
    t.cfgReadTimeout = 3000#32 ∧ t.cfgPort = 0#32 ∧ t.respLen = 0#32 ∧ t.cmds = Vector.replicate 8 0#32 ∧
    t.idLens = 0#32 ∧ t.win = [] ∧ (∀ a, t.win.read a = 0x00#8) ∧ t.seq = none ∧ t.busy = false ∧
    t.stream = { isOpen := false, timeout := 3000#32, baud := 460800#32, port := 0#32 } ∧ t.rx = [] ∧
    (s.blockReset k).now = s.now

/-- R302: a block reset at a step of a running operation ends the operation at once, with the reset values and no
completion; a block reset of the idle block, as a step, leaves the same reset values. Either leaves of the TX trace what
the sensor got: at most the bytes not flushed yet are missing (that all of those may be missing is the model's choice, log
entry 7). -/
def Obligations.ResetEndsTheOperation : Prop :=
  (∀ (s : State) (m : List BusyAccess), s.busy = true → s.meddle = .reset :: m →
    ∃ t, step s = .next t ∧ s.resetTo t ∧ t.meddle = m ∧ t.host = s.host) ∧
  (∀ (s : State) (h : List HostAccess), s.seq = none → s.host = .reset :: h →
    ∃ t, step s = .next t ∧ s.resetTo t ∧ t.meddle = s.meddle ∧ t.host = h)

/-- The mapping of R263 with the completion of R34, for Pass and for Fail: BUSY falls and DONE rises; RESULT, REASON, ERR
and FAIL_ADDR; FT_WARN is `ftw` for FULL_RESET and 0 for every other operation (R27, R226). After a Pass VALID and RDATA
are those of READ_REGISTER_WORD, or VALID, ID_LENS and the identity registers those of DETECT_IDENTITY, or RESP_LEN and
RESP those of SEND_COMMAND and SEND_COMMANDS (a response of at most 2040 bytes, strings of at most 16); each of them is 0
where the operation has no such value, and after a Fail (R25, R26, R28). -/
def Obligations.CompletionMapping : Prop :=
  (∀ (s : State) (r : Run), let t := s.pass r
    t.result = true ∧ t.reason = .ok ∧ t.err = .noError ∧ t.failAddrWord = 0#32 ∧ t.busy = false ∧ t.done = true ∧
    (t.ftWarn = true ↔ r.op = 14#4 ∧ r.ftw = true) ∧
    (t.valid = true ↔ r.op = 6#4 ∨ (r.op = 7#4 ∧ r.ident ≠ none)) ∧
    (r.op = 6#4 → t.rdata = r.value) ∧ (r.op ≠ 6#4 → t.rdata = 0#16) ∧
    (r.op = 3#4 ∨ r.op = 4#4 → r.buf.length ≤ 2040 →
      t.respLen.toNat = r.buf.length ∧ ∀ k, k < 2040 → t.win.read (0x800 + k) = r.buf.getD k 0x00#8) ∧
    (r.op ≠ 3#4 → r.op ≠ 4#4 → t.respLen = 0#32 ∧ ∀ k, k < 2040 → t.win.read (0x800 + k) = 0x00#8) ∧
    (∀ i, r.op = 7#4 → r.ident = some i → i.fits →
      t.idLens = 0#8 ++ BitVec.ofNat 8 i.serial.length ++ BitVec.ofNat 8 i.product.length ++ BitVec.ofNat 8 i.raw.length ∧
      ∀ k, k < 16 → t.win.read (0x050 + k) = i.raw.getD k 0x00#8 ∧ t.win.read (0x060 + k) = i.product.getD k 0x00#8 ∧
        t.win.read (0x070 + k) = i.serial.getD k 0x00#8) ∧
    (r.op ≠ 7#4 ∨ r.ident = none → t.idLens = 0#32 ∧ ∀ a, 0x050 ≤ a → a < 0x080 → t.win.read a = 0x00#8)) ∧
  (∀ (s : State) (r : Run) (f : Failure), let t := s.completeFail r f
    t.result = false ∧ t.valid = false ∧ t.rdata = 0#16 ∧ t.respLen = 0#32 ∧ t.idLens = 0#32 ∧ t.win = [] ∧
    t.busy = false ∧ t.done = true ∧ (t.ftWarn = true ↔ r.op = 14#4 ∧ r.ftw = true) ∧
    (∀ k a, f = .transport k (some a) → t.reason = .transport ∧ t.err = .transport k ∧
      t.failAddrWord = 0#23 ++ 1#1 ++ a) ∧
    (∀ k, f = .transport k none → t.reason = .transport ∧ t.err = .transport k ∧ t.failAddrWord = 0#32) ∧
    (f = .pollExpired → t.reason = .pollExpired ∧ t.err = .noError ∧ t.failAddrWord = 0#32) ∧
    (f = .verifyFlagSet → t.reason = .verifyFlagSet ∧ t.err = .noError ∧ t.failAddrWord = 0#32) ∧
    (f = .notConfirmed → t.reason = .notConfirmed ∧ t.err = .noError ∧ t.failAddrWord = 0#32) ∧
    (f = .refused → t.reason = .refused ∧ t.err = .illegalOp ∧ t.failAddrWord = 0#32) ∧
    (f = .decode → t.reason = .decode ∧ t.err = .noError ∧ t.failAddrWord = 0#32))

/-- The word the host reads at STATUS has the fields of R21, its OPEN bit the stream's flag (R22), with the ten codes of
R261 in ERR and the seven of R262 in REASON, and its reserved bits read 0. At the other word indexes of R20 the host reads
OPREQ, RDATA with [31:16] = 0, FAIL_ADDR with FAIL_VALID in bit 8 (R29), CFG_BAUD, CFG_READ_TIMEOUT, CFG_PORT, RESP_LEN,
CMD0 to CMD7 and ID_LENS; in a byte-string register it reads little-endian words, the byte of the lowest offset in [7:0]
(R19). -/
def Obligations.StatusWordLayout : Prop :=
  ∀ s : State,
    s.hostRead 0x01#10 = s.statusWord ∧
    s.statusWord.getLsbD 0 = s.busy ∧ s.statusWord.getLsbD 1 = s.done ∧ s.statusWord.getLsbD 2 = s.result ∧
    s.statusWord.getLsbD 3 = s.valid ∧ s.statusWord.getLsbD 4 = s.stream.isOpen ∧ s.statusWord.getLsbD 5 = s.ftWarn ∧
    s.statusWord.getLsbD 6 = s.reject ∧ s.statusWord.getLsbD 7 = false ∧
    s.statusWord.extractLsb' 8 4 = (match s.err with
      | .noError => 0#4
      | .transport .connNotFound => 1#4
      | .transport .connPermissionDenied => 2#4
      | .transport .connOther => 3#4
      | .transport .timeout => 4#4
      | .transport .protocol => 5#4
      | .transport .io => 6#4
      | .transport .notOpen => 7#4
      | .transport .alreadyOpen => 8#4
      | .illegalOp => 9#4) ∧
    s.statusWord.extractLsb' 12 4 = (match s.reason with
      | .ok => 0#4
      | .transport => 1#4
      | .pollExpired => 2#4
      | .verifyFlagSet => 3#4
      | .notConfirmed => 4#4
      | .refused => 5#4
      | .decode => 6#4) ∧
    s.statusWord.extractLsb' 16 4 = s.lastOp ∧ s.statusWord.extractLsb' 20 12 = 0#12 ∧
    s.hostRead 0x00#10 = s.opreq ∧ s.hostRead 0x02#10 = 0#16 ++ s.rdata ∧
    (∀ a, s.failAddr = some a → s.hostRead 0x03#10 = 0#23 ++ 1#1 ++ a) ∧
    (s.failAddr = none → s.hostRead 0x03#10 = 0#32) ∧
    s.hostRead 0x04#10 = s.cfgBaud ∧ s.hostRead 0x05#10 = s.cfgReadTimeout ∧ s.hostRead 0x06#10 = s.cfgPort ∧
    s.hostRead 0x07#10 = s.respLen ∧ (∀ k : Fin 8, s.hostRead (BitVec.ofNat 10 (0x08 + k)) = s.cmds[k]) ∧
    s.hostRead 0x10#10 = s.idLens ∧
    ∀ i : BitVec 10, ((0x14 ≤ i.toNat ∧ i.toNat ≤ 0x1F) ∨ (0x200 ≤ i.toNat ∧ i.toNat ≤ 0x3FD)) →
      ∀ k, k < 4 → (s.hostRead i).extractLsb' (8 * k) 8 = s.win.read (4 * i.toNat + k)

/-- R19: an offset that the register map of R20 does not list reads as 0, and a write to it changes nothing: at word
indexes 0x11 to 0x13, 0x20 to 0x1FF, 0x3FE and 0x3FF. -/
def Obligations.UnlistedOffsets : Prop :=
  ∀ (s : State) (i : BitVec 10) (v : Word),
    ((0x11 ≤ i.toNat ∧ i.toNat ≤ 0x13) ∨ (0x20 ≤ i.toNat ∧ i.toNat ≤ 0x1FF) ∨ 0x3FE ≤ i.toNat) →
      s.hostRead i = 0#32 ∧ s.writeConfig i v = s

/-- A host write to the idle block, other than to OPREQ: CFG_BAUD, CFG_READ_TIMEOUT, CFG_PORT and CMD0 to CMD7 take any
word and read it back, every other register and offset ignores the write, and every other word of the window reads as
before (R19, R20, R23, R31). Nothing else of the state changes. That the write takes no time and no draw, so that no byte
arrives at it, is read from the spec by inference (log entry 5): R19, R20, R23 and R31 give it no duration. -/
def Obligations.HostWritesReadBack : Prop :=
  ∀ (s : State) (i : BitVec 10) (v : Word) (h : List HostAccess), s.seq = none → i ≠ 0#10 → s.host = .write i v :: h →
    ∃ t, step s = .next t ∧ t.tx = s.tx ∧ t.now = s.now ∧ t.rx = s.rx ∧ t.stream = s.stream ∧ t.seq = none ∧
      ((4 ≤ i.toNat ∧ i.toNat ≤ 6) ∨ (8 ≤ i.toNat ∧ i.toNat ≤ 15) → t.hostRead i = v) ∧
      (¬((4 ≤ i.toNat ∧ i.toNat ≤ 6) ∨ (8 ≤ i.toNat ∧ i.toNat ≤ 15)) → t.hostRead i = s.hostRead i) ∧
      (∀ j, j ≠ i → t.hostRead j = s.hostRead j) ∧ t.host = h ∧
      { t with
        host := s.host, cfgBaud := s.cfgBaud, cfgReadTimeout := s.cfgReadTimeout, cfgPort := s.cfgPort, cmds := s.cmds }
        = s

/-- A request, any of the 16 request rows, that finds the block busy is dropped: only REJECT rises (R35). -/
def Obligations.BusyBlockDropsRequests : Prop :=
  ∀ (i : Instr) (s : State), i.format = .opreq → s.busy = true → exec i s = .next { s with reject := true }

/-- The host's accesses at a step of a running operation do not affect the operation: a write to OPREQ is dropped and
sets REJECT at once (R35, R272), a write to any other register is ignored (R23); the step is that of a quiet host. That
this holds at the completion step too (an operation with no position left), where the write comes before the completion, is
the model's choice (log entry 10). -/
def Obligations.HostWritesWhileBusy : Prop :=
  ∀ (s : State) (i : BitVec 10) (v : Word) (m : List BusyAccess), s.busy = true →
    { s with meddle := .write 0#10 v :: m }.tick = { { s with meddle := .quiet :: m }.tick with reject := true } ∧
    (i ≠ 0#10 → { s with meddle := .write i v :: m }.tick = { s with meddle := .quiet :: m }.tick)

/-- While an operation goes on, the host reads the values of the previous completion: a step that leaves the block busy
changes no result register, no configuration register and no bit of STATUS but OPEN and REJECT (R23, R24). -/
def Obligations.ResultsHeldWhileBusy : Prop :=
  ∀ s : State, s.busy = true → s.tick.busy = true →
    (∀ i : BitVec 10, i ≠ 1#10 → s.tick.hostRead i = s.hostRead i) ∧
    { s.tick with reject := s.reject, stream := s.stream }.statusWord = s.statusWord

/-- Every step keeps the state coherent: the window bytes canonical and inside the byte-string registers, BUSY and DONE
never both 1, the running operation the one LAST_OP names, STATUS and the result registers in agreement as R21, R25 to
R29, R262 and R263 say, RESP_LEN within RESP, the FIFO within its depth. -/
def Obligations.StepKeepsCoherence : Prop :=
  ∀ s t : State, s.Coherent → step s = .next t → t.Coherent

/-- The state right after reset is coherent. -/
def Obligations.ResetStateIsCoherent : Prop := State.reset.Coherent

/-- The time base never goes back, and no step changes a parameter of the machine (R14, R39, R9; that the parameters stand
in the state is the model's choice, log entry 4). -/
def Obligations.TimeAndParameters : Prop :=
  ∀ s : State, ∃ t, step s = .next t ∧ s.now ≤ t.now ∧ t.params = s.params

/-- Bytes once handed to the transmitter stay in the TX trace, in their order, as long as no block reset comes: a step
only adds bytes at the end (R16, R77). -/
def Obligations.TxTraceOnlyGrows : Prop :=
  ∀ s t : State, s.noReset → (∀ h, s.host ≠ .reset :: h) → step s = .next t → ∃ sent, t.tx = s.tx ++ sent

/-- No instruction changes the configuration, the command list or what the host does next on the idle block, as long as
no block reset comes: "the command list and the configuration cannot change while an operation runs" (R23, R83). -/
def Obligations.OperationsKeepTheConfiguration : Prop :=
  ∀ (i : Instr) (s : State), s.noReset →
    ∃ t, exec i s = .next t ∧ t.cfgBaud = s.cfgBaud ∧ t.cfgReadTimeout = s.cfgReadTimeout ∧ t.cfgPort = s.cfgPort ∧
      t.cmds = s.cmds ∧ t.host = s.host

/-- On a closed stream no request but OPEN sends a byte or opens the stream, whatever the platform, the sensor and the
clock do (R141, R271, program P6). -/
def Obligations.ClosedStreamSendsNothing : Prop :=
  ∀ (i : Instr) (s : State), s.seq = none → s.stream.isOpen = false → s.noReset → i.format = .opreq →
    (∀ hi f, i ≠ .openStream hi f) → ∃ t, exec i s = .next t ∧ t.tx = s.tx ∧ t.stream.isOpen = false

/-- R92: any value in the fields an operation does not use selects the same operation with the same meaning. Two requests
that differ only there lead to states that differ at most in OPREQ; where the block is idle and no block reset comes, OPREQ
holds the word as written. -/
def Obligations.IgnoredFieldsDoNotMatter : Prop :=
  ∀ (i j : Instr) (s : State), i.format = .opreq → i.withoutIgnored = j.withoutIgnored →
    ∃ t u, exec i s = .next t ∧ exec j s = .next u ∧ { t with opreq := 0#32 } = { u with opreq := 0#32 } ∧
      (s.seq = none → s.noReset → t.opreq = encode i ∧ u.opreq = encode j)

/-! ## The receive FIFO and the reader -/

/-- The receive FIFO: on an open stream the bytes of the sensor are appended in arrival order (unbounded FIFO), on a
closed stream they are lost, and a FIFO of bounded depth that is full treats them as RX_OVERFLOW says (R37, I10, I11).
What each value of RX_OVERFLOW does with the bytes is the model's choice (log entry 8). -/
def Obligations.FifoArrivals : Prop :=
  ∀ (s : State) (bs : List Byte),
    (s.stream.isOpen = false → s.arrive bs = s) ∧
    (s.stream.isOpen = true → s.params.rxFifoDepth = none → s.arrive bs = { s with rx := s.rx ++ bs }) ∧
    (∀ n, s.stream.isOpen = true → s.params.rxFifoDepth = some n → s.rx.length ≤ n →
      (s.params.rxOverflow = .dropNewest → (s.arrive bs).rx = (s.rx ++ bs).take n ∧ (s.arrive bs).held = s.held) ∧
      (s.params.rxOverflow = .dropOldest →
        (s.arrive bs).rx = (s.rx ++ bs).drop ((s.rx ++ bs).length - n) ∧ (s.arrive bs).held = s.held) ∧
      (s.params.rxOverflow = .stall → (s.arrive bs).rx.length ≤ n ∧
        (s.arrive bs).rx ++ (s.arrive bs).held = s.rx ++ (s.held ++ bs)))

/-- The read timer (R138, R270): with no byte there, the read fails with TIMEOUT exactly when `stream.timeout` ms have
passed since the last byte or the read's start, and otherwise waits; a byte that is there at that very instant is taken,
and the timer restarts. -/
def Obligations.ReadTimerAndTie : Prop :=
  ∀ (s : State) (r : Run) (need last : Nat) (rep : Byte) (rest : List Act) (d : Draw) (ds : List Draw),
    s.seq = some r → r.todo = .rx (need + 1) last rep :: rest → s.meddle = [] → s.stream.isOpen = true →
    s.params.rxFifoDepth = none → s.rx = [] → s.script = d :: ds →
    (∀ b bs, d.arrivals = b :: bs →
      s.tick = { s with
        script := ds, now := s.now + d.elapsed, rx := bs,
        seq := some { r with
          buf := r.buf ++ [b]
          todo := if need = 0 then rest else .rx need (s.now + d.elapsed) rep :: rest } }) ∧
    (d.arrivals = [] → s.now + d.elapsed - last < s.stream.timeout.toNat →
      s.tick = { s with script := ds, now := s.now + d.elapsed }) ∧
    (d.arrivals = [] → s.stream.timeout.toNat ≤ s.now + d.elapsed - last →
      s.tick = { s with script := ds, now := s.now + d.elapsed }.failWith { r with todo := rest }
        (.transport .timeout (some rep)))

/-- The byte-string registers after a completion: RESP holds the response bytes and 0x00 after them, each identity
register its string left-aligned and 0x00 after it (R19, R26, R28). -/
def Obligations.WindowBytesOfACompletion : Prop :=
  ∀ (ident : Option Identity) (resp : List Byte), resp.length ≤ 2040 → (∀ i, ident = some i → i.fits) →
    (∀ k, k < 2040 → (windowImage ident resp).read (0x800 + k) = resp.getD k 0x00#8) ∧
    (∀ k, k < 16 →
      (windowImage ident resp).read (0x050 + k) = ((ident.map (·.raw)).getD []).getD k 0x00#8 ∧
      (windowImage ident resp).read (0x060 + k) = ((ident.map (·.product)).getD []).getD k 0x00#8 ∧
      (windowImage ident resp).read (0x070 + k) = ((ident.map (·.serial)).getD []).getD k 0x00#8)

/-! ## Transport requests -/

/-- R102: an illegal request completes at once with REFUSED and ILLEGAL_OP: it sends nothing, takes no time, and leaves
every result register 0. The same for SEND_COMMANDS with a count over 8. Its example: the word 0x00000020 on a closed
stream leaves STATUS = 0x00005902. -/
def Obligations.IllegalRequestIsRefused : Prop :=
  ∀ s : State, s.seq = none →
    (∀ w : Word, exec (.reservedOp0 w) s = .next (s.reports w .refused false)) ∧
    (∀ (hi : Half) (n : Byte) (f : BitVec 1), 8 < n.toNat →
      exec (.sendCommands hi n f) s = .next (s.reports (encode (.sendCommands hi n f)) .refused false)) ∧
    (s.stream.isOpen = false → (s.reports 0x00000020#32 .refused false).statusWord = 0x00005902#32)

/-- OPEN on a closed stream whose platform answers Ok: the stream is open with CFG_READ_TIMEOUT, CFG_BAUD and CFG_PORT
latched, the receive FIFO is empty, RESULT = 1 (R131, R133, R36, R30). -/
def Obligations.OpenSucceeds : Prop :=
  ∀ (hi : BitVec 24) (f : BitVec 1) (s : State) (rest : List Draw),
    s.seq = none → s.stream.isOpen = false → s.Calm 2 rest →
    exec (.openStream hi f) s = .next (State.reports { s with
      script := rest
      stream := { isOpen := true, timeout := s.cfgReadTimeout, baud := s.cfgBaud, port := s.cfgPort }
      rx := [] } (encode (.openStream hi f)) .passed false)

/-- OPEN whose platform fails: the error kinds of R132, FAIL_ADDR = 0, the stream stays closed (R131, R132, R29). -/
def Obligations.OpenReportsThePlatformFailure : Prop :=
  ∀ (hi : BitVec 24) (f : BitVec 1) (s : State) (o : PlatformOutcome) (k : TransportErr) (rest : List Draw),
    s.seq = none → s.stream.isOpen = false → s.meddle = [] → s.script = Draw.opening o :: rest →
    ((o = .notFound ∧ k = .connNotFound) ∨ (o = .accessDenied ∧ k = .connPermissionDenied) ∨
      (o = .busy ∧ k = .connOther) ∨ (o = .otherFailure ∧ k = .connOther)) →
    exec (.openStream hi f) s = .next ({ s with script := rest }.reports (encode (.openStream hi f))
      (.transportFailed k none) false)

/-- R134: OPEN while open is refused with ALREADY_OPEN and changes nothing: the stream, its parameters and `rx` are
kept. -/
def Obligations.OpenWhileOpenIsRefused : Prop :=
  ∀ (hi : BitVec 24) (f : BitVec 1) (s : State) (rest : List Draw), s.Ready 1 rest →
    exec (.openStream hi f) s = .next ({ s with script := rest }.reports (encode (.openStream hi f))
      (.transportFailed .alreadyOpen none) false)

/-- CLOSE passes whatever the stream was and leaves it closed; the bytes in the FIFO stay there, unreachable (R135). -/
def Obligations.CloseAlwaysPasses : Prop :=
  ∀ (hi : BitVec 24) (f : BitVec 1) (s : State) (rest : List Draw), s.seq = none → s.Calm 2 rest →
    exec (.closeStream hi f) s = .next (State.reports { s with
      script := rest
      stream := { s.stream with isOpen := false } } (encode (.closeStream hi f)) .passed false)

/-- SEND_COMMAND with its response there: the frame [b1, b2, 0x0D] is sent, exactly `len` bytes are taken from the FIFO
and reported in RESP, the bytes after them stay; any length, 0 too (R141, R142, R143, R28). -/
def Obligations.SendCommandResult : Prop :=
  ∀ (len b2 b1 : Byte) (f : BitVec 1) (s : State) (rest : List Draw) (resp rx : List Byte),
    s.Ready (len.toNat + 6) rest → resp.length = len.toNat → s.rx = resp ++ rx →
    exec (.sendCommand len b2 b1 f) s =
      .next ((s.exchanged rest [b1, b2, 0x0D] rx 0).reports (encode (.sendCommand len b2 b1 f))
        { Report.passed with resp := resp } false)

/-- SEND_COMMAND that fails is reported against byte 1, with RESP_LEN 0: on a closed stream nothing is sent (NOT_OPEN);
where the platform fails byte `k + 1` or, for `k = 3`, the flush, the bytes before it were sent (IO); where the response
stays short for the timeout, its bytes are discarded (TIMEOUT) (R136, R138, R141, R142, R270). -/
def Obligations.SendCommandFailures : Prop :=
  ∀ (len b2 b1 : Byte) (f : BitVec 1) (s : State) (rest : List Draw), s.seq = none →
    (s.stream.isOpen = false → s.Calm 1 rest →
      exec (.sendCommand len b2 b1 f) s = .next ({ s with script := rest }.reports (encode (.sendCommand len b2 b1 f))
        (.transportFailed .notOpen (some b1)) false)) ∧
    (∀ k, k ≤ 3 → s.stream.isOpen = true → s.Calm (k + 1) (Draw.ioFailure :: rest) →
      exec (.sendCommand len b2 b1 f) s = .next (State.reports { s with
        script := rest, tx := s.tx ++ [b1, b2, 0x0D].take k, txPending := s.txPending + k }
        (encode (.sendCommand len b2 b1 f)) (.transportFailed .io (some b1)) false)) ∧
    (∀ ms, s.stream.isOpen = true → s.rx.length < len.toNat → s.stream.timeout.toNat ≤ ms →
      s.Calm (s.rx.length + 5) (Draw.after ms :: rest) →
      exec (.sendCommand len b2 b1 f) s = .next ((s.exchanged rest [b1, b2, 0x0D] [] ms).reports
        (encode (.sendCommand len b2 b1 f)) (.transportFailed .timeout (some b1)) false))

/-- SEND_COMMANDS with its responses there: the frames of CMD0 to CMD(n-1) in that order, each Command taken from the
entry's fields, and the responses concatenated in RESP; any count from 0 to 8 (R31, R147, R148, R105). -/
def Obligations.SendCommandsResult : Prop :=
  ∀ (hi : Half) (n : Byte) (f : BitVec 1) (s : State) (rest : List Draw) (cs : List Command) (resps : List (List Byte))
    (rx : List Byte),
    n.toNat ≤ 8 →
    cs = (s.cmds.toList.take n.toNat).map
      (fun w => ⟨w.extractLsb' 16 8, w.extractLsb' 8 8, w.extractLsb' 0 8⟩) →
    resps.map List.length = cs.map (fun c => c.len.toNat) → s.rx = resps.flatten ++ rx →
    s.Ready (5 * n.toNat + resps.flatten.length + 1) rest →
    exec (.sendCommands hi n f) s = .next (State.reports { s with
      script := rest, tx := s.tx ++ cs.flatMap Command.bytes, rx := rx,
      txPending := if n.toNat = 0 then s.txPending else 0 }
      (encode (.sendCommands hi n f)) { Report.passed with resp := resps.flatten } false)

/-- A failure on any command of the list aborts the remaining ones, and is reported against that command's byte 1 with
RESP_LEN 0, whatever the commands before it got (R147, R148, R77). The command after `pre` may get only `part` of its
response, or nothing, for the timeout: the bytes are discarded (TIMEOUT). The platform may fail its byte `k + 1` or, for
`k = 3`, its flush: the bytes before it were sent (IO). On a closed stream the first command fails and nothing is sent
(NOT_OPEN) (R136, R138, R141). -/
def Obligations.SendCommandsStopAtTheFirstFailure : Prop :=
  ∀ (hi : Half) (n : Byte) (f : BitVec 1) (s : State) (rest : List Draw) (pre post : List Command) (c : Command)
    (resps : List (List Byte)),
    n.toNat ≤ 8 →
    (s.cmds.toList.take n.toNat).map (fun w => ⟨w.extractLsb' 16 8, w.extractLsb' 8 8, w.extractLsb' 0 8⟩) =
      pre ++ c :: post →
    resps.map List.length = pre.map (fun c => c.len.toNat) →
    (∀ (part : List Byte) (ms : Nat), s.rx = resps.flatten ++ part → part.length < c.len.toNat →
      s.stream.timeout.toNat ≤ ms →
      s.Ready (5 * (pre.length + 1) + resps.flatten.length + part.length) (Draw.after ms :: rest) →
      exec (.sendCommands hi n f) s = .next ((s.exchanged rest ((pre ++ [c]).flatMap Command.bytes) [] ms).reports
        (encode (.sendCommands hi n f)) (.transportFailed .timeout (some c.b1)) false)) ∧
    (∀ (k : Nat) (rx : List Byte), k ≤ 3 → s.rx = resps.flatten ++ rx →
      s.Ready (5 * pre.length + resps.flatten.length + 1 + k) (Draw.ioFailure :: rest) →
      exec (.sendCommands hi n f) s = .next (State.reports { s with
        script := rest, tx := s.tx ++ pre.flatMap Command.bytes ++ c.bytes.take k, rx := rx,
        txPending := if pre = [] then s.txPending + k else k }
        (encode (.sendCommands hi n f)) (.transportFailed .io (some c.b1)) false)) ∧
    (pre = [] → s.seq = none → s.stream.isOpen = false → s.Calm 1 rest →
      exec (.sendCommands hi n f) s = .next ({ s with script := rest }.reports (encode (.sendCommands hi n f))
        (.transportFailed .notOpen (some c.b1)) false))

/-! ## Frames and responses -/

/-- The 23 frame instructions (SPELL, WINSEL0, WINSEL1, WR_UART_CTRL_ON, WR_UART_CTRL_OFF, WR_GLOB_FLASH_BACKUP,
WR_GLOB_SW_RESET, WR_MODE_EXIT, WR_MSC_FLASH_TEST, RD_MODE_MSC, RD_DIAG_STAT1, RD_GLOB_CMD, RD_PROD0 to RD_PROD3, RD_SER0
to RD_SER3, WRITE_FRAME, READ_FRAME, RAW_FRAME) as the next frame of a running operation: the three bytes of the Command
are sent and flushed, then exactly LEN bytes join the operation's buffer; nothing else of the block changes (R71, R97,
R100, R141). That a frame row is the running operation's next frame is the model's choice (log entry 2). -/
def Obligations.FramesInAnOperation : Prop :=
  ∀ (i : Instr) (s : State) (r : Run) (c : Command) (rep : Byte) (todo : List Act) (rest : List Draw)
    (resp rx : List Byte),
    i.format = .cmd → s.seq = some r → r.todo = .frame c rep :: todo → s.stream.isOpen = true →
    resp.length = i.command.len.toNat → s.rx = resp ++ rx → s.Calm (5 + resp.length) rest →
    exec i s = .next { s.exchanged rest [i.command.b1, i.command.b2, 0x0D] rx 0 with
      seq := some { r with todo := todo, buf := r.buf ++ resp } }

/-- The 23 frame instructions with no operation running: the pseudo-instruction of R107, one raw Command, its frame sent
with no window select before it and its response in RESP (R107, R142). That a frame row with no operation running is that
request is the model's choice (log entry 2). -/
def Obligations.FramesAsRequests : Prop :=
  ∀ (i : Instr) (s : State) (rest : List Draw) (resp rx : List Byte),
    i.format = .cmd → resp.length = i.command.len.toNat → s.rx = resp ++ rx → s.Ready (resp.length + 6) rest →
    exec i s = .next ((s.exchanged rest [i.command.b1, i.command.b2, 0x0D] rx 0).reports
      (i.command.len ++ i.command.b2 ++ i.command.b1 ++ 0x03#8) { Report.passed with resp := resp } false)

/-- READ_RESPONSE at the parser of a running operation: the value is bytes 1 and 2, most significant first; echo and
terminator are not checked (R65, R99, R166, R167). That a response row at the parser stands for the operation's response,
in place of the bytes it has read, is the model's choice (log entry 2). -/
def Obligations.ResponseAtTheParser : Prop :=
  ∀ (e m l t : Byte) (s : State) (r : Run) (rep : Byte) (todo : List Act) (rest : List Draw),
    s.seq = some r → r.todo = .parse rep :: todo → s.Calm 1 rest →
    exec (.readResponse e m l t) s = .next { s with
      script := rest, seq := some { r with todo := todo, value := m ++ l, buf := [] } }

/-- READ_RESPONSE with the block not at its parser: its four bytes come from the sensor, in arrival order, and nothing
else happens; on a closed stream they are lost (R37, R99). That a response word stands for an arrival there is the model's
choice (log entry 2). -/
def Obligations.ResponseArrives : Prop :=
  ∀ (e m l t : Byte) (s : State), (∀ r rep rest, s.seq = some r → r.todo ≠ .parse rep :: rest) →
    (s.stream.isOpen = true → s.params.rxFifoDepth = none →
      exec (.readResponse e m l t) s = .next { s with rx := s.rx ++ [e, m, l, t] }) ∧
    (s.stream.isOpen = false → exec (.readResponse e m l t) s = .next s)

/-! ## Register access and identity -/

/-- RESET_SENSOR: three frames FF FF 0D, nothing read, no settling delay (R170, R171).
Where the platform fails a byte or the flush of one of the three frames, nothing more is sent, and the failure is reported
against 0xFF (R136, R170). -/
def Obligations.ResetSensorResult : Prop :=
  (∀ (hi : BitVec 24) (f : BitVec 1) (s : State) (rest : List Draw), s.Ready 16 rest →
    exec (.resetSensor hi f) s = .next ((s.exchanged rest
      [0xFF, 0xFF, 0x0D, 0xFF, 0xFF, 0x0D, 0xFF, 0xFF, 0x0D] s.rx 0).reports (encode (.resetSensor hi f)) .passed false)) ∧
  (∀ (hi : BitVec 24) (f : BitVec 1) (s : State) (j k : Nat), j ≤ 2 → k ≤ 3 →
    s.Completes (.resetSensor hi f) (spellFailsBeats j k) (.transportFailed .io (some 0xFF)) false)

/-- READ_REGISTER_WORD: the select of the window F, the read of the address, the value in RDATA; the next four bytes of
the FIFO are the response, whatever sent them, and any value, 0 too, is a value (R65, R73, R165, R166, R168). -/
def Obligations.ReadRegisterWordResult : Prop :=
  ∀ (hi : Half) (a : Byte) (w : BitVec 1) (s : State) (rest : List Draw) (ans : Answer) (rx : List Byte),
    s.Ready 16 rest → s.rx = ans.bytes ++ rx →
    exec (.readRegisterWord hi a w) s =
      .next ((s.exchanged rest (s.readBytes (w.zeroExtend 8) a) rx 0).reports (encode (.readRegisterWord hi a w))
        { Report.passed with valid := true, rdata := ans.value } false)

/-- Every failure of READ_REGISTER_WORD is reported against the register's address, whichever of its two frames failed: a
closed stream, a failing select, a failing read frame, a response that stays short (R29, R165, R168). -/
def Obligations.ReadRegisterWordFailures : Prop :=
  ∀ (hi : Half) (a : Byte) (w : BitVec 1) (s : State) (rest : List Draw), s.seq = none →
    (s.stream.isOpen = false → s.Calm 1 rest →
      exec (.readRegisterWord hi a w) s = .next ({ s with script := rest }.reports (encode (.readRegisterWord hi a w))
        (.transportFailed .notOpen (some a)) false)) ∧
    (∀ k, k ≤ 3 → s.stream.isOpen = true → s.Calm (k + 1) (Draw.ioFailure :: rest) →
      exec (.readRegisterWord hi a w) s = .next (State.reports { s with
        script := rest, tx := s.tx ++ [0xFE, w.zeroExtend 8, 0x0D].take k, txPending := s.txPending + k }
        (encode (.readRegisterWord hi a w)) (.transportFailed .io (some a)) false)) ∧
    (∀ k, k ≤ 3 → s.stream.isOpen = true → s.Calm (k + 6) (Draw.ioFailure :: rest) →
      exec (.readRegisterWord hi a w) s = .next (State.reports { s with
        script := rest, txPending := k,
        tx := s.tx ++ [0xFE, w.zeroExtend 8, 0x0D] ++ [a, s.params.readPad, 0x0D].take k }
        (encode (.readRegisterWord hi a w)) (.transportFailed .io (some a)) false)) ∧
    (∀ ms, s.stream.isOpen = true → s.rx.length < 4 → s.stream.timeout.toNat ≤ ms →
      s.Calm (s.rx.length + 10) (Draw.after ms :: rest) →
      exec (.readRegisterWord hi a w) s =
        .next ((s.exchanged rest (s.readBytes (w.zeroExtend 8) a) [] ms).reports (encode (.readRegisterWord hi a w))
          (.transportFailed .timeout (some a)) false))

/-- DETECT_IDENTITY: the eight words of R182 in their order, each with its window-1 select, the closing select of window
0, and the three strings in the identity registers: the two decoded ones, and the product ID, which is the value of the raw
string's row in ALIAS_TABLE, or the raw string itself where no row has it as key; by default "A342VD10" gives "M-A542VR1"
(R26, R181, R182, R185, R186). A closing select that the platform fails changes nothing of the result (R268). -/
def Obligations.DetectIdentityResult : Prop :=
  Params.default.names [0x41, 0x33, 0x34, 0x32, 0x56, 0x44, 0x31, 0x30]
    [0x4D, 0x2D, 0x41, 0x35, 0x34, 0x32, 0x56, 0x52, 0x31] ∧
  ∀ (hi : BitVec 24) (f : BitVec 1) (s : State) (answers : List Answer) (raw product serial : List Byte),
    answers.length = 8 →
    decodeText s.params ((answers.map (·.value)).take 4) = some raw →
    decodeText s.params ((answers.map (·.value)).drop 4) = some serial →
    s.params.names raw product → product.length ≤ 16 →
    let addrs : List Byte := [0x6A, 0x6C, 0x6E, 0x70, 0x74, 0x76, 0x78, 0x7A]
    let report : Report :=
      { Report.passed with valid := true, ident := some { raw := raw, product := product, serial := serial } }
    (∀ (rest : List Draw) (rx : List Byte), s.rx = answers.flatMap Answer.bytes ++ rx → s.Ready 137 rest →
      exec (.detectIdentity hi f) s =
        .next ((s.exchanged rest (addrs.flatMap (s.readBytes 0x01) ++ [0xFE, 0x00, 0x0D]) rx 0).reports
          (encode (.detectIdentity hi f)) report false)) ∧
    (∀ c, courtesyPossible c →
      s.Completes (.detectIdentity hi f)
        ((addrs.zip answers).flatMap (fun x => (Reading.answered x.2).tested s.params.readPad 0x01 x.1) ++ [.quiet] ++
          courtesyBeats c) report false)

/-- Identity is atomic or nothing: where the read of the word after `answers` fails, by an answer that stays short for the
timeout or by a byte or a flush that the platform fails, DETECT_IDENTITY sends nothing more, reports no identity, and names
that word's address; where a string is rejected it ends with DECODE after the
eight reads, with no closing select (R82, R184, R186). -/
def Obligations.DetectIdentityIsAtomic : Prop :=
  (∀ (hi : BitVec 24) (f : BitVec 1) (s : State) (rest : List Draw) (answers : List Answer) (rx : List Byte) (ms : Nat),
    (∀ a addrs later, ([0x6A, 0x6C, 0x6E, 0x70, 0x74, 0x76, 0x78, 0x7A] : List Byte) = addrs ++ a :: later →
      answers.length = addrs.length → s.rx = answers.flatMap Answer.bytes ++ rx → rx.length < 4 →
      s.stream.timeout.toNat ≤ ms → s.Ready (16 * addrs.length + rx.length + 10) (Draw.after ms :: rest) →
      exec (.detectIdentity hi f) s =
        .next ((s.exchanged rest ((addrs ++ [a]).flatMap (s.readBytes 0x01)) [] ms).reports
          (encode (.detectIdentity hi f)) (.transportFailed .timeout (some a)) false)) ∧
    (answers.length = 8 → s.rx = answers.flatMap Answer.bytes ++ rx →
      (decodeText s.params ((answers.map (·.value)).take 4) = none ∨
        decodeText s.params ((answers.map (·.value)).drop 4) = none) → s.Ready 129 rest →
      exec (.detectIdentity hi f) s =
        .next ((s.exchanged rest
          (([0x6A, 0x6C, 0x6E, 0x70, 0x74, 0x76, 0x78, 0x7A] : List Byte).flatMap (s.readBytes 0x01)) rx 0).reports
          (encode (.detectIdentity hi f)) (.failed .decode) false))) ∧
  ∀ (hi : BitVec 24) (f : BitVec 1) (s : State) (answers : List Answer) (a : Byte) (addrs later : List Byte) (r : Reading)
    (g : Failure),
    ([0x6A, 0x6C, 0x6E, 0x70, 0x74, 0x76, 0x78, 0x7A] : List Byte) = addrs ++ a :: later →
    answers.length = addrs.length → r.possible s.stream.timeout.toNat → r.failure a = some g →
    s.Completes (.detectIdentity hi f)
      ((addrs.zip answers).flatMap (fun x => (Reading.answered x.2).tested s.params.readPad 0x01 x.1) ++
        r.beats s.params.readPad 0x01 a) g.report false

/-- The round-trip law (R188): a text of 8 bytes, none of them 0x00, none ≥ 0x80, neither its first nor its last in
WS_SET, is what its words, low byte first, decode to, whatever NONASCII is. -/
def Obligations.TextRoundTrip : Prop :=
  ∀ (p : Params) (a b c d e g h i : Byte), let t := [a, b, c, d, e, g, h, i]
    (∀ x ∈ t, x ≠ 0x00#8 ∧ x.toNat < 0x80) → a ∉ p.wsSet → i ∉ p.wsSet →
      decodeText p [b ++ a, d ++ c, g ++ e, i ++ h] = some t

/-- What DecodeText gives (R184): null bytes dropped wherever they stand, the rest in order, WS_SET trimmed at the two
ends only. With NONASCII = reject, a byte ≥ 0x80 rejects the string, and nothing else does; with drop such bytes are
dropped; with keep they stay. -/
def Obligations.DecodedText : Prop :=
  ∀ (p : Params) (ws : List Half),
    let chars := (ws.flatMap (fun v => [v.extractLsb' 0 8, v.extractLsb' 8 8])).filter (· != 0x00#8)
    let kept := if p.nonAscii = .drop then chars.filter (fun b => decide (b.toNat < 0x80)) else chars
    (decodeText p ws = none ↔ p.nonAscii = .reject ∧ ∃ b ∈ chars, 0x80 ≤ b.toNat) ∧
    ∀ t, decodeText p ws = some t →
      (∃ front back, kept = front ++ t ++ back ∧ (∀ b ∈ front ++ back, b ∈ p.wsSet)) ∧
      (∀ b, t.head? = some b → b ∉ p.wsSet) ∧ (∀ b, t.getLast? = some b → b ∉ p.wsSet)

/-! ## Multi-step operations -/

/-- SET_UART_AUTO_START: the spell three times, 100 ms, then 0x03 to UART_CTRL in window 1 (R203).
Where the platform fails a byte or the flush of one of its five frames, nothing more is sent, and the failure is reported
against byte 1 of that frame (R136, R203). -/
def Obligations.SetUartAutoStartResult : Prop :=
  (∀ (hi : BitVec 24) (f : BitVec 1) (s : State) (rest : List Draw), s.Ready 27 rest →
    exec (.setUartAutoStart hi f) s = .next ((s.exchanged rest
      [0xFF, 0xFF, 0x0D, 0xFF, 0xFF, 0x0D, 0xFF, 0xFF, 0x0D, 0xFE, 0x01, 0x0D, 0x88, 0x03, 0x0D] s.rx 100).reports
      (encode (.setUartAutoStart hi f)) .passed false)) ∧
  (∀ (hi : BitVec 24) (f : BitVec 1) (s : State) (run : ArmRun), run.possible →
    s.Completes (.setUartAutoStart hi f) run.beats (outcomeReport run.failure) false)

/-- FLASH_BACKUP whose first poll answer has bit 3 clear: it passes if bit 0 of DIAG_STAT1 is clear and fails with
VERIFY_FLAG_SET if it is set; no other bit of either value is tested (R206).
However its command, its poll and its verify go (`FlashRun`): attempts of the poll that find bit 3 set or whose read fails
with TIMEOUT or IO are followed by 100 ms and another attempt (R202), and the backup passes, or fails with the transport
error of its command or of its verify read, with POLL_EXPIRED, or with VERIFY_FLAG_SET (R206). -/
def Obligations.FlashBackupResult : Prop :=
  (∀ (hi : BitVec 24) (f : BitVec 1) (s : State) (rest : List Draw) (g d : Answer) (rx : List Byte),
    s.rx = g.bytes ++ d.bytes ++ rx → g.value.getLsbD 3 = false →
    let sent := [0xFE, 0x01, 0x0D, 0x8A, 0x08, 0x0D] ++ s.readBytes 0x01 0x0A ++ s.readBytes 0x00 0x04
    (d.value.getLsbD 0 = false → s.Ready 45 rest →
      exec (.flashBackup hi f) s =
        .next ((s.exchanged rest sent rx 0).reports (encode (.flashBackup hi f)) .passed false)) ∧
    (d.value.getLsbD 0 = true → s.Ready 44 rest →
      exec (.flashBackup hi f) s =
        .next ((s.exchanged rest sent rx 0).reports (encode (.flashBackup hi f)) (.failed .verifyFlagSet) false))) ∧
  (∀ (hi : BitVec 24) (f : BitVec 1) (s : State) (run : FlashRun), run.possible s.stream.timeout.toNat .backup →
    s.Completes (.flashBackup hi f) (run.beats s.params.readPad .backup) (outcomeReport (run.failure .backup)) false)

/-- flashBackup's testable property (R208): if GLOB_CMD bit 3 never clears within 5.0 s of reads, the result is false with
no error: 50 attempts, each of its answers with bit 3 set, POLL_EXPIRED at 5000 ms, and no verify read is sent (R201, R204,
R206). -/
def Obligations.FlashBackupNeverClears : Prop :=
  ∀ (hi : BitVec 24) (f : BitVec 1) (s : State) (rest : List Draw) (answers : List Answer) (rx : List Byte),
    answers.length = 50 → (∀ a ∈ answers, a.value.getLsbD 3 = true) → s.rx = answers.flatMap Answer.bytes ++ rx →
    s.Ready 912 rest →
    exec (.flashBackup hi f) s =
      .next ((s.exchanged rest
        ([0xFE, 0x01, 0x0D, 0x8A, 0x08, 0x0D] ++ (List.replicate 50 (s.readBytes 0x01 0x0A)).flatten) rx 5000).reports
        (encode (.flashBackup hi f)) (.failed .pollExpired) false)

/-- FLASH_TEST whose first poll answer has bit 10 clear: with bit 2 of DIAG_STAT1 clear it makes the trailing readiness
wait and passes; with bit 2 set it fails with VERIFY_FLAG_SET and without that wait (R210, R211).
However its command, its poll, its verify and the wait go (`TestRun`): attempts of the poll that find bit 10 set or whose
read fails are followed by 100 ms and another attempt (R202), and the test passes whatever the wait does (R212), or fails
as flashBackup does. -/
def Obligations.FlashTestResult : Prop :=
  (∀ (hi : BitVec 24) (f : BitVec 1) (s : State) (rest : List Draw) (g d w : Answer) (rx : List Byte),
    g.value.getLsbD 10 = false →
    let sent := [0xFE, 0x01, 0x0D, 0x83, 0x08, 0x0D] ++ s.readBytes 0x01 0x02 ++ s.readBytes 0x00 0x04
    (d.value.getLsbD 2 = false → w.value.getLsbD 10 = false → s.rx = g.bytes ++ d.bytes ++ w.bytes ++ rx →
      s.Ready 65 rest →
      exec (.flashTest hi f) s = .next ((s.exchanged rest (sent ++ s.readBytes 0x01 0x0A) rx 0).reports
        (encode (.flashTest hi f)) .passed false)) ∧
    (d.value.getLsbD 2 = true → s.rx = g.bytes ++ d.bytes ++ rx → s.Ready 44 rest →
      exec (.flashTest hi f) s =
        .next ((s.exchanged rest sent rx 0).reports (encode (.flashTest hi f)) (.failed .verifyFlagSet) false))) ∧
  (∀ (hi : BitVec 24) (f : BitVec 1) (s : State) (run : TestRun), run.possible s.stream.timeout.toNat →
    s.Completes (.flashTest hi f) (run.beats s.params.readPad) (outcomeReport run.failure) false)

/-- The result of flashTest's trailing readiness wait is ignored (R212): where its 40 attempts all find bit 10 set, the
wait costs 2000 ms and FLASH_TEST passes. -/
def Obligations.FlashTestIgnoresTheTrailingWait : Prop :=
  ∀ (hi : BitVec 24) (f : BitVec 1) (s : State) (rest : List Draw) (g d : Answer) (answers : List Answer)
    (rx : List Byte),
    g.value.getLsbD 10 = false → d.value.getLsbD 2 = false → answers.length = 40 →
    (∀ a ∈ answers, a.value.getLsbD 10 = true) → s.rx = g.bytes ++ d.bytes ++ (answers.flatMap Answer.bytes ++ rx) →
    s.Ready 768 rest →
    exec (.flashTest hi f) s = .next ((s.exchanged rest
      ([0xFE, 0x01, 0x0D, 0x83, 0x08, 0x0D] ++ s.readBytes 0x01 0x02 ++ s.readBytes 0x00 0x04 ++
        (List.replicate 40 (s.readBytes 0x01 0x0A)).flatten) rx 2000).reports (encode (.flashTest hi f)) .passed false)

/-- WAIT_UNTIL_READY whose attempt after `answers` is the first to find bit 10 clear, within the bound: Ready after
`answers.length + 1` attempts, at 50 ms for each attempt before it (R201, R204, R214).
The same where attempts before it fail with TIMEOUT or IO: the poll absorbs each failure, sleeps 50 ms and tries again
(R202). -/
def Obligations.WaitUntilReadyBecomesReady : Prop :=
  (∀ (t : Half) (lo : Byte) (f : BitVec 1) (s : State) (rest : List Draw) (answers : List Answer) (a : Answer)
    (rx : List Byte),
    (∀ b ∈ answers, b.value.getLsbD 10 = true) → a.value.getLsbD 10 = false → 50 * answers.length < t.toNat →
    s.rx = answers.flatMap Answer.bytes ++ (a.bytes ++ rx) → s.Ready (18 * answers.length + 19) rest →
    exec (.waitUntilReady t lo f) s =
      .next ((s.exchanged rest (List.replicate (answers.length + 1) (s.readBytes 0x01 0x0A)).flatten rx
        (50 * answers.length)).reports (encode (.waitUntilReady t lo f)) .passed false)) ∧
  (∀ (t : Half) (lo : Byte) (f : BitVec 1) (s : State) (early : List Reading) (a : Answer),
    PollRun.possible s.stream.timeout.toNat 10 50 t.toNat ⟨early, some a⟩ →
    s.Completes (.waitUntilReady t lo f) (PollRun.beats s.params.readPad 0x0A 50 ⟨early, some a⟩) .passed false)

/-- WAIT_UNTIL_READY whose answers never have bit 10 clear: `ceil(T / 50)` attempts, POLL_EXPIRED at 50 ms for each of
them; with T = 0 nothing is sent and it fails at once (R201, R204, R214).
Where attempts fail with TIMEOUT or IO the poll absorbs each failure (R202), and it expires at the first check that finds T
reached. -/
def Obligations.WaitUntilReadyExpires : Prop :=
  (∀ (t : Half) (lo : Byte) (f : BitVec 1) (s : State) (rest : List Draw) (answers : List Answer) (rx : List Byte),
    (∀ b ∈ answers, b.value.getLsbD 10 = true) → answers.length = (t.toNat + 49) / 50 →
    s.rx = answers.flatMap Answer.bytes ++ rx → s.Ready (18 * answers.length + 2) rest →
    exec (.waitUntilReady t lo f) s = .next (State.reports { s with
      script := rest, rx := rx, now := s.now + 50 * answers.length,
      tx := s.tx ++ (List.replicate answers.length (s.readBytes 0x01 0x0A)).flatten,
      txPending := if answers.length = 0 then s.txPending else 0 }
      (encode (.waitUntilReady t lo f)) (.failed .pollExpired) false)) ∧
  (∀ (t : Half) (lo : Byte) (f : BitVec 1) (s : State) (early : List Reading),
    PollRun.possible s.stream.timeout.toNat 10 50 t.toNat ⟨early, none⟩ →
    s.Completes (.waitUntilReady t lo f) (PollRun.beats s.params.readPad 0x0A 50 ⟨early, none⟩) (.failed .pollExpired)
      false)

/-- WAIT_UNTIL_READY on a closed stream: every attempt fails with NOT_OPEN and sends nothing, the poll absorbs it, and
the operation sleeps until the bound and fails with POLL_EXPIRED, not with a transport error (R202, R214, R271). -/
def Obligations.WaitUntilReadyOnAClosedStream : Prop :=
  ∀ (t : Half) (lo : Byte) (f : BitVec 1) (s : State) (rest : List Draw), s.seq = none → s.stream.isOpen = false →
    s.Calm (3 * ((t.toNat + 49) / 50) + 2) rest →
    exec (.waitUntilReady t lo f) s = .next (State.reports { s with
      script := rest, now := s.now + 50 * ((t.toNat + 49) / 50) }
      (encode (.waitUntilReady t lo f)) (.failed .pollExpired) false)

/-- SOFTWARE_RESET: 0x80 to GLOB_CMD in window 1, then the readiness poll with no sleep before it; it passes at the
first attempt that finds bit 10 clear (R217).
However its command and its poll go (`ResetRun`): it passes where an attempt begun before 7000 ms finds bit 10 clear, attempts
whose read fails being absorbed (R202), and fails with the transport error of its command or with POLL_EXPIRED. -/
def Obligations.SoftwareResetResult : Prop :=
  (∀ (hi : BitVec 24) (f : BitVec 1) (s : State) (rest : List Draw) (answers : List Answer) (a : Answer)
    (rx : List Byte),
    (∀ b ∈ answers, b.value.getLsbD 10 = true) → a.value.getLsbD 10 = false → answers.length < 140 →
    s.rx = answers.flatMap Answer.bytes ++ (a.bytes ++ rx) → s.Ready (18 * answers.length + 29) rest →
    exec (.softwareReset hi f) s =
      .next ((s.exchanged rest ([0xFE, 0x01, 0x0D, 0x8A, 0x80, 0x0D] ++
        (List.replicate (answers.length + 1) (s.readBytes 0x01 0x0A)).flatten) rx (50 * answers.length)).reports
        (encode (.softwareReset hi f)) .passed false)) ∧
  (∀ (hi : BitVec 24) (f : BitVec 1) (s : State) (run : ResetRun), run.possible s.stream.timeout.toNat →
    s.Completes (.softwareReset hi f) (run.beats s.params.readPad) (outcomeReport run.failure) false)

/-- EXIT_AUTO_MODE whose MODE_CTRL read confirms bit 10: with F = 0 it clears UART_CTRL and restores window 0; with F = 1
it makes a flash backup before that. The MODE_CTRL read has no select of its own (R219, R220).
However the backup and the closing select go: a backup that fails ends it with the backup's outcome, UART_CTRL already
cleared and no closing select (R219, R267); a closing select that the platform fails changes nothing of the result
(R268).
Where the clear of UART_CTRL fails, nothing more is sent (R219). -/
def Obligations.ExitAutoModeResult : Prop :=
  (∀ (hi : BitVec 24) (s : State) (rest : List Draw) (m g d : Answer) (rx : List Byte),
    m.value.getLsbD 10 = true → g.value.getLsbD 3 = false → d.value.getLsbD 0 = false →
    let sent := [0xFE, 0x00, 0x0D, 0x83, 0x02, 0x0D, 0x02, s.params.readPad, 0x0D, 0xFE, 0x01, 0x0D, 0x88, 0x00, 0x0D]
    (s.rx = m.bytes ++ rx → s.Ready 40 rest →
      exec (.exitAutoMode hi 0#1) s = .next ((s.exchanged rest (sent ++ [0xFE, 0x00, 0x0D]) rx 50).reports
        (encode (.exitAutoMode hi 0#1)) .passed false)) ∧
    (s.rx = m.bytes ++ g.bytes ++ d.bytes ++ rx → s.Ready 84 rest →
      exec (.exitAutoMode hi 1#1) s = .next ((s.exchanged rest (sent ++ [0xFE, 0x01, 0x0D, 0x8A, 0x08, 0x0D] ++
        s.readBytes 0x01 0x0A ++ s.readBytes 0x00 0x04 ++ [0xFE, 0x00, 0x0D]) rx 50).reports
        (encode (.exitAutoMode hi 1#1)) .passed false))) ∧
  (∀ (hi : BitVec 24) (s : State) (m : Answer) (c : Option Nat), m.value.getLsbD 10 = true → courtesyPossible c →
    s.Completes (.exitAutoMode hi 0#1) (modeExitBeats s.params.readPad m none ++ courtesyBeats c) .passed false ∧
    ∀ run : FlashRun, run.possible s.stream.timeout.toNat .backup →
      s.Completes (.exitAutoMode hi 1#1) (modeExitBeats s.params.readPad m none ++ run.beats s.params.readPad .backup ++
        if run.failure .backup = none then courtesyBeats c else []) (outcomeReport (run.failure .backup)) false) ∧
  (∀ (hi : BitVec 24) (persist : BitVec 1) (s : State) (m : Answer) (place : Bool × Nat), m.value.getLsbD 10 = true →
    place.2 ≤ 3 →
    s.Completes (.exitAutoMode hi persist) (modeExitBeats s.params.readPad m (some place)) (writeFailure 0x88 place).report
      false)

/-- exitAutoMode's testable property (R221), for EXIT_AUTO_MODE with either flag and for FULL_RESET with persist, which
fails fast with the same outcome (R224, R267): where the MODE_CTRL read does not show bit 10, or its answer stays short
for the timeout, the UART_CTRL clear is never sent; the TX trace gains exactly the two frames of the mode-exit write and
the read frame. Nor is it sent where the platform fails a byte or the flush of one of these three frames (R136, R219). -/
def Obligations.ModeExitNotConfirmed : Prop :=
  ∀ (i : Instr) (s : State) (rest : List Draw),
    ((∃ hi persist, i = .exitAutoMode hi persist) ∨ ∃ hi, i = .fullReset hi 1#1) →
    let sent := [0xFE, 0x00, 0x0D, 0x83, 0x02, 0x0D, 0x02, s.params.readPad, 0x0D]
    (∀ (m : Answer) (rx : List Byte), m.value.getLsbD 10 = false → s.rx = m.bytes ++ rx → s.Ready 22 rest →
      exec i s = .next ((s.exchanged rest sent rx 50).reports (encode i) (.failed .notConfirmed) false)) ∧
    (∀ ms, s.rx.length < 4 → s.stream.timeout.toNat ≤ ms → s.Ready (s.rx.length + 16) (Draw.after ms :: rest) →
      exec i s = .next ((s.exchanged rest sent [] (50 + ms)).reports (encode i)
        (.transportFailed .timeout (some 0x02)) false)) ∧
    (∀ place : Bool × Nat, place.2 ≤ 3 →
      s.Completes i (writeBeats 0x00 0x83 0x02 (some place)) (writeFailure 0x83 place).report false) ∧
    (∀ k, k ≤ 3 →
      s.Completes i (writeBeats 0x00 0x83 0x02 none ++ [.sleep 50] ++ frameFailsBeats 0x02 s.params.readPad k)
        (.transportFailed .io (some 0x02)) false)

/-- FULL_RESET without persist: window 0 selected, no frame of exitAutoMode, the spell, 100 ms, the flash test, the
software reset, 800 ms. A flash test whose verify fails does not end it: it passes with FT_WARN = 1 (R224, R225, R226,
R227, R268).
However the flash test goes, by expiry of its poll and by a transport error too, and whatever attempts of the three polls
fail (R202, R226): where the software reset passes, it passes, with FT_WARN exactly if the flash test failed.
Where the platform fails the select or a frame of the spell, nothing more is sent, and FT_WARN is 0 (R224, R226). -/
def Obligations.FullResetWithoutPersist : Prop :=
  (∀ (hi : BitVec 24) (s : State) (rest : List Draw) (g d w q : Answer) (rx : List Byte),
    g.value.getLsbD 10 = false → w.value.getLsbD 10 = false → q.value.getLsbD 10 = false →
    let sent := [0xFE, 0x00, 0x0D, 0xFF, 0xFF, 0x0D, 0xFF, 0xFF, 0x0D, 0xFF, 0xFF, 0x0D, 0xFE, 0x01, 0x0D, 0x83, 0x08,
      0x0D] ++ s.readBytes 0x01 0x02 ++ s.readBytes 0x00 0x04
    let reboot := [0xFE, 0x01, 0x0D, 0x8A, 0x80, 0x0D] ++ s.readBytes 0x01 0x0A
    (d.value.getLsbD 2 = false → s.rx = g.bytes ++ d.bytes ++ w.bytes ++ q.bytes ++ rx → s.Ready 117 rest →
      exec (.fullReset hi 0#1) s = .next ((s.exchanged rest (sent ++ s.readBytes 0x01 0x0A ++ reboot) rx 900).reports
        (encode (.fullReset hi 0#1)) .passed false)) ∧
    (d.value.getLsbD 2 = true → s.rx = g.bytes ++ d.bytes ++ q.bytes ++ rx → s.Ready 96 rest →
      exec (.fullReset hi 0#1) s = .next ((s.exchanged rest (sent ++ reboot) rx 900).reports
        (encode (.fullReset hi 0#1)) .passed true))) ∧
  (∀ (hi : BitVec 24) (s : State) (test : TestRun) (reset : ResetRun), test.possible s.stream.timeout.toNat →
    reset.possible s.stream.timeout.toNat → reset.failure = none →
    s.Completes (.fullReset hi 0#1) (frameBeats 0xFE 0x00 ++ rebootBeats s.params.readPad test reset) .passed
      test.failure.isSome) ∧
  (∀ (hi : BitVec 24) (s : State) (j k : Nat), j ≤ 2 → k ≤ 3 →
    s.Completes (.fullReset hi 0#1) (frameFailsBeats 0xFE 0x00 k) (.transportFailed .io (some 0xFE)) false ∧
    s.Completes (.fullReset hi 0#1) (frameBeats 0xFE 0x00 ++ spellFailsBeats j k) (.transportFailed .io (some 0xFF)) false)

/-- FULL_RESET with persist: exitAutoMode with its flash backup first, then as without persist; it passes, with FT_WARN
exactly if the flash test's verify found bit 2 set (R224, R225, R226).
However the backup, its closing select and the flash test go: a backup that fails ends it with the backup's outcome before
the spell (R224, R267); a closing select that fails and a flash test that fails, by expiry or a transport error too, end
nothing (R226, R268).
Where the clear of UART_CTRL or a frame of the spell fails, nothing more is sent, and FT_WARN is 0 (R224, R226, R267). -/
def Obligations.FullResetWithPersist : Prop :=
  (∀ (hi : BitVec 24) (s : State) (rest : List Draw) (m g d b c w q : Answer) (rx : List Byte),
    m.value.getLsbD 10 = true → g.value.getLsbD 3 = false → d.value.getLsbD 0 = false → b.value.getLsbD 10 = false →
    w.value.getLsbD 10 = false → q.value.getLsbD 10 = false →
    let sent := [0xFE, 0x00, 0x0D, 0x83, 0x02, 0x0D, 0x02, s.params.readPad, 0x0D, 0xFE, 0x01, 0x0D, 0x88, 0x00, 0x0D,
      0xFE, 0x01, 0x0D, 0x8A, 0x08, 0x0D] ++ s.readBytes 0x01 0x0A ++ s.readBytes 0x00 0x04 ++ [0xFE, 0x00, 0x0D, 0xFF,
      0xFF, 0x0D, 0xFF, 0xFF, 0x0D, 0xFF, 0xFF, 0x0D, 0xFE, 0x01, 0x0D, 0x83, 0x08, 0x0D] ++ s.readBytes 0x01 0x02 ++
      s.readBytes 0x00 0x04
    let reboot := [0xFE, 0x01, 0x0D, 0x8A, 0x80, 0x0D] ++ s.readBytes 0x01 0x0A
    (c.value.getLsbD 2 = false →
      s.rx = m.bytes ++ g.bytes ++ d.bytes ++ b.bytes ++ c.bytes ++ w.bytes ++ q.bytes ++ rx → s.Ready 195 rest →
      exec (.fullReset hi 1#1) s = .next ((s.exchanged rest (sent ++ s.readBytes 0x01 0x0A ++ reboot) rx 950).reports
        (encode (.fullReset hi 1#1)) .passed false)) ∧
    (c.value.getLsbD 2 = true → s.rx = m.bytes ++ g.bytes ++ d.bytes ++ b.bytes ++ c.bytes ++ q.bytes ++ rx →
      s.Ready 174 rest →
      exec (.fullReset hi 1#1) s = .next ((s.exchanged rest (sent ++ reboot) rx 950).reports
        (encode (.fullReset hi 1#1)) .passed true))) ∧
  (∀ (hi : BitVec 24) (s : State) (m : Answer) (backup : FlashRun), m.value.getLsbD 10 = true →
    backup.possible s.stream.timeout.toNat .backup →
    (∀ place : Bool × Nat, place.2 ≤ 3 →
      s.Completes (.fullReset hi 1#1) (modeExitBeats s.params.readPad m (some place)) (writeFailure 0x88 place).report
        false) ∧
    (∀ (c : Option Nat) (j k : Nat), backup.failure .backup = none → courtesyPossible c → j ≤ 2 → k ≤ 3 →
      s.Completes (.fullReset hi 1#1) (modeExitBeats s.params.readPad m none ++ backup.beats s.params.readPad .backup ++
        courtesyBeats c ++ spellFailsBeats j k) (.transportFailed .io (some 0xFF)) false) ∧
    (∀ f, backup.failure .backup = some f →
      s.Completes (.fullReset hi 1#1) (modeExitBeats s.params.readPad m none ++ backup.beats s.params.readPad .backup) f.report
        false) ∧
    ∀ (c : Option Nat) (test : TestRun) (reset : ResetRun), backup.failure .backup = none → courtesyPossible c →
      test.possible s.stream.timeout.toNat → reset.possible s.stream.timeout.toNat → reset.failure = none →
      s.Completes (.fullReset hi 1#1) (modeExitBeats s.params.readPad m none ++ backup.beats s.params.readPad .backup ++
        courtesyBeats c ++ rebootBeats s.params.readPad test reset) .passed test.failure.isSome)

/-- A software reset that fails makes FULL_RESET fail with its outcome, with FT_WARN kept and no stabilisation sleep, with
and without persist and regardless of the flash test's outcome: where a byte or the flush of either frame of the software
reset's write fails, and where its readiness poll expires (R226, R227). The first clause has the answers in the FIFO; the
others say it of any course of the flash test and of the polls. -/
def Obligations.FullResetFailsWithTheSoftwareReset : Prop :=
  (∀ (hi : BitVec 24) (s : State) (rest : List Draw) (g d : Answer) (rx : List Byte),
    g.value.getLsbD 10 = false → d.value.getLsbD 2 = true → s.rx = g.bytes ++ d.bytes ++ rx →
    s.Ready 67 (Draw.ioFailure :: rest) →
    exec (.fullReset hi 0#1) s = .next ((s.exchanged rest ([0xFE, 0x00, 0x0D, 0xFF, 0xFF, 0x0D, 0xFF, 0xFF, 0x0D, 0xFF,
      0xFF, 0x0D, 0xFE, 0x01, 0x0D, 0x83, 0x08, 0x0D] ++ s.readBytes 0x01 0x02 ++ s.readBytes 0x00 0x04) rx 100).reports
      (encode (.fullReset hi 0#1)) (.transportFailed .io (some 0xFE)) true)) ∧
  (∀ (hi : BitVec 24) (s : State) (test : TestRun) (reset : ResetRun) (f : Failure),
    test.possible s.stream.timeout.toNat → reset.possible s.stream.timeout.toNat → reset.failure = some f →
    s.Completes (.fullReset hi 0#1) (frameBeats 0xFE 0x00 ++ rebootBeats s.params.readPad test reset) f.report
      test.failure.isSome ∧
    ∀ (m : Answer) (backup : FlashRun) (c : Option Nat), m.value.getLsbD 10 = true →
      backup.possible s.stream.timeout.toNat .backup → backup.failure .backup = none → courtesyPossible c →
      s.Completes (.fullReset hi 1#1) (modeExitBeats s.params.readPad m none ++ backup.beats s.params.readPad .backup ++
        courtesyBeats c ++ rebootBeats s.params.readPad test reset) f.report test.failure.isSome)

/-- CONFIGURE: setUartAutoStart, then flashBackup, with the outcome of the backup (R228).
However the backup goes (`FlashRun`), the outcome is the backup's; where setUartAutoStart fails, its failure is the outcome and
no backup is made. -/
def Obligations.ConfigureResult : Prop :=
  (∀ (hi : BitVec 24) (f : BitVec 1) (s : State) (rest : List Draw) (g d : Answer) (rx : List Byte),
    s.rx = g.bytes ++ d.bytes ++ rx → g.value.getLsbD 3 = false →
    let sent := [0xFF, 0xFF, 0x0D, 0xFF, 0xFF, 0x0D, 0xFF, 0xFF, 0x0D, 0xFE, 0x01, 0x0D, 0x88, 0x03, 0x0D, 0xFE, 0x01,
      0x0D, 0x8A, 0x08, 0x0D] ++ s.readBytes 0x01 0x0A ++ s.readBytes 0x00 0x04
    (d.value.getLsbD 0 = false → s.Ready 71 rest →
      exec (.configure hi f) s =
        .next ((s.exchanged rest sent rx 100).reports (encode (.configure hi f)) .passed false)) ∧
    (d.value.getLsbD 0 = true → s.Ready 70 rest →
      exec (.configure hi f) s =
        .next ((s.exchanged rest sent rx 100).reports (encode (.configure hi f)) (.failed .verifyFlagSet) false))) ∧
  (∀ (hi : BitVec 24) (f : BitVec 1) (s : State) (backup : FlashRun), backup.possible s.stream.timeout.toNat .backup →
    s.Completes (.configure hi f) (ArmRun.armed.beats ++ backup.beats s.params.readPad .backup)
      (outcomeReport (backup.failure .backup)) false) ∧
  (∀ (hi : BitVec 24) (f : BitVec 1) (s : State) (arm : ArmRun) (g : Failure), arm.possible → arm.failure = some g →
    s.Completes (.configure hi f) arm.beats g.report false)

/-- On a closed stream RESET_SENSOR, DETECT_IDENTITY, SET_UART_AUTO_START, FLASH_BACKUP, FLASH_TEST, SOFTWARE_RESET,
EXIT_AUTO_MODE, FULL_RESET and CONFIGURE fail with NOT_OPEN at their first frame, at once, with nothing sent, reported
against byte 1 of the frame or the register being read (R141, R271, 95_test_vectors.md RS-3, ID-F3, FB-5,
FR-3, P6). -/
def Obligations.OperationsOnAClosedStream : Prop :=
  ∀ (i : Instr) (a : Byte) (s : State) (rest : List Draw), s.seq = none → s.stream.isOpen = false → s.Calm 1 rest →
    (∃ hi f, (i = .resetSensor hi f ∧ a = 0xFF) ∨ (i = .detectIdentity hi f ∧ a = 0x6A) ∨
      (i = .setUartAutoStart hi f ∧ a = 0xFF) ∨ (i = .flashBackup hi f ∧ a = 0xFE) ∨ (i = .flashTest hi f ∧ a = 0xFE) ∨
      (i = .softwareReset hi f ∧ a = 0xFE) ∨ (i = .exitAutoMode hi f ∧ a = 0xFE) ∨ (i = .fullReset hi f ∧ a = 0xFE) ∨
      (i = .configure hi f ∧ a = 0xFF)) →
    exec i s = .next ({ s with script := rest }.reports (encode i) (.transportFailed .notOpen (some a)) false)
end

