-- ==== Sys2Proof/Laws/Memory.lean ====
section
/-! SUPPORT. The laws of the window bytes: a read after a write, and that every memory operation keeps the canonical
form. -/

namespace Sys2Proof.Machine

/-- In canonical form an offset below every listed one is not listed, so it reads as 0. -/
theorem Memory.read_of_lt {m : Memory} {a : Nat} (h : ∀ c ∈ m, a < c.1) : Memory.read m a = 0#8 := by
  induction m with
  | nil => rfl
  | cons c m ih =>
    have hc := h c (by simp)
    simp only [Memory.read]
    rw [if_neg (by omega)]
    exact ih (fun d hd => h d (by simp [hd]))

/-- Writing an offset leaves the entries within the old ones and the written one. -/
theorem Memory.mem_write {m : Memory} {a : Nat} {v : Byte} {c : Host.Cell} (h : c ∈ Memory.write m a v) :
    c ∈ m ∨ (c = (a, v) ∧ v ≠ 0#8) := by
  induction m with
  | nil =>
    simp only [Memory.write] at h
    split at h
    · simp at h
    · rename_i hv; simp at h; exact .inr ⟨h, hv⟩
  | cons d m ih =>
    simp only [Memory.write] at h
    split at h
    · split at h
      · exact .inl h
      · rename_i hv
        rcases List.mem_cons.mp h with h | h
        · exact .inr ⟨h, hv⟩
        · exact .inl h
    · split at h
      · split at h
        · exact .inl (by simp [h])
        · rename_i hv
          rcases List.mem_cons.mp h with h | h
          · exact .inr ⟨h, hv⟩
          · exact .inl (by simp [h])
      · rcases List.mem_cons.mp h with h | h
        · exact .inl (by simp [h])
        · rcases ih h with h | h
          · exact .inl (by simp [h])
          · exact .inr h

/-- A write keeps the canonical form. -/
theorem Memory.write_wf {m : Memory} (h : Memory.wf m) (a : Nat) (v : Byte) : Memory.wf (Memory.write m a v) := by
  refine ⟨?_, fun c hc => ?_⟩
  · obtain ⟨hs, hz⟩ := h
    clear hz
    induction m with
    | nil => simp only [Memory.write]; split <;> simp
    | cons d m ih =>
      have hd := List.pairwise_cons.mp hs
      simp only [Memory.write]
      split
      · split
        · exact hs
        · refine List.pairwise_cons.mpr ⟨fun c hc => ?_, hs⟩
          rcases List.mem_cons.mp hc with rfl | hc
          · assumption
          · have := hd.1 c hc; show a < c.1; omega
      · split
        · split
          · exact hd.2
          · rename_i h _; subst h; exact List.pairwise_cons.mpr hd
        · refine List.pairwise_cons.mpr ⟨fun c hc => ?_, ih hd.2⟩
          rcases Memory.mem_write hc with hc | ⟨rfl, -⟩
          · exact hd.1 c hc
          · show d.1 < a; omega
  · rcases Memory.mem_write hc with hc | ⟨rfl, hv⟩
    · exact h.2 c hc
    · exact hv

/-- A read after a write to the same offset gives the byte written. -/
@[simp] theorem Memory.read_write_same {m : Memory} (h : Memory.wf m) (a : Nat) (v : Byte) :
    Memory.read (Memory.write m a v) a = v := by
  induction m with
  | nil => simp only [Memory.write]; split <;> simp_all [Memory.read]
  | cons d m ih =>
    have hd := List.pairwise_cons.mp h.1
    have hm : Memory.wf m := ⟨hd.2, fun c hc => h.2 c (by simp [hc])⟩
    simp only [Memory.write]
    split
    · split
      · rename_i hlt hv
        rw [hv]
        refine Memory.read_of_lt (fun c hc => ?_)
        rcases List.mem_cons.mp hc with rfl | hc
        · exact hlt
        · have := hd.1 c hc; omega
      · simp [Memory.read]
    · split
      · rename_i heq
        split
        · rename_i hv
          rw [hv]
          exact Memory.read_of_lt (fun c hc => by have := hd.1 c hc; omega)
        · simp [Memory.read]
      · rename_i hne
        simp only [Memory.read]
        rw [if_neg (fun e => hne e.symm)]
        exact ih hm

/-- A write leaves every other offset as it was. -/
theorem Memory.read_write_other (m : Memory) {a b : Nat} (v : Byte) (h : b ≠ a) :
    Memory.read (Memory.write m a v) b = Memory.read m b := by
  induction m with
  | nil => simp only [Memory.write]; split <;> simp [Memory.read, h.symm]
  | cons d m ih =>
    simp only [Memory.write]
    split
    · split
      · rfl
      · simp [Memory.read, h.symm]
    · split
      · rename_i heq
        split
        · simp [Memory.read, ← heq, h.symm]
        · simp [Memory.read, ← heq, h.symm]
      · simp only [Memory.read, ih]

/-- Writing bytes keeps the canonical form. -/
theorem Memory.writeBytes_wf {m : Memory} (h : Memory.wf m) (a : Nat) (bs : List Byte) :
    Memory.wf (Memory.writeBytes m a bs) := by
  induction bs generalizing m a with
  | nil => exact h
  | cons b bs ih => exact ih (Memory.write_wf h a b) (a + 1)

/-- Writing bytes leaves every offset outside them as it was. -/
theorem Memory.read_writeBytes_other {m : Memory} {a b : Nat} {bs : List Byte} (h : b < a ∨ a + bs.length ≤ b) :
    Memory.read (Memory.writeBytes m a bs) b = Memory.read m b := by
  induction bs generalizing m a with
  | nil => rfl
  | cons x bs ih =>
    simp only [List.length_cons] at h
    rw [Memory.writeBytes, ih (by omega), Memory.read_write_other _ _ (by omega)]

/-- Byte `i` of the bytes written is read at the base plus `i`. -/
theorem Memory.read_writeBytes {m : Memory} (h : Memory.wf m) {a i : Nat} {bs : List Byte} (hi : i < bs.length) :
    Memory.read (Memory.writeBytes m a bs) (a + i) = bs[i] := by
  induction bs generalizing m a i with
  | nil => simp at hi
  | cons x bs ih =>
    rw [Memory.writeBytes]
    cases i with
    | zero =>
      rw [Memory.read_writeBytes_other (by omega)]
      simpa using Memory.read_write_same h a x
    | succ i =>
      have := ih (Memory.write_wf h a x) (a := a + 1) (i := i) (by simpa using hi)
      rw [show a + (i + 1) = a + 1 + i by omega, this]
      simp

/-- An entry after writing bytes is an old one or lies among the bytes written. -/
theorem Memory.mem_writeBytes {m : Memory} {a : Nat} {bs : List Byte} {c : Host.Cell}
    (h : c ∈ Memory.writeBytes m a bs) : c ∈ m ∨ (a ≤ c.1 ∧ c.1 < a + bs.length) := by
  induction bs generalizing m a with
  | nil => exact .inl h
  | cons x bs ih =>
    rcases ih h with h | h
    · rcases Memory.mem_write h with h | ⟨rfl, -⟩
      · exact .inl h
      · exact .inr (by simp)
    · exact .inr (by simp; omega)

/-- The empty memory is in canonical form, which is the memory of State.reset. -/
theorem Memory.wf_nil : Memory.wf [] := ⟨List.Pairwise.nil, by simp⟩

/-- The window bytes after a completion are in canonical form. -/
theorem windowImage_wf (ident : Option Identity) (resp : List Byte) : Memory.wf (windowImage ident resp) := by
  unfold windowImage
  apply Memory.writeBytes_wf
  cases ident with
  | none => exact Memory.wf_nil
  | some i => exact Memory.writeBytes_wf (Memory.writeBytes_wf (Memory.writeBytes_wf Memory.wf_nil _ _) _ _) _ _

end Sys2Proof.Machine
end

