-- ==== Sys2Proof/Laws/State.lean ====
section
/-! SUPPORT. One lemma per field per update of the state: what each named update writes, and that it leaves every other
field alone. -/

namespace Sys2Proof.Machine

/-! ## goOn -/

@[simp] theorem State.goOn_opreq (s : State) (r : Run) : (s.goOn r).opreq = s.opreq := rfl
@[simp] theorem State.goOn_done (s : State) (r : Run) : (s.goOn r).done = s.done := rfl
@[simp] theorem State.goOn_result (s : State) (r : Run) : (s.goOn r).result = s.result := rfl
@[simp] theorem State.goOn_valid (s : State) (r : Run) : (s.goOn r).valid = s.valid := rfl
@[simp] theorem State.goOn_ftWarn (s : State) (r : Run) : (s.goOn r).ftWarn = s.ftWarn := rfl
@[simp] theorem State.goOn_reject (s : State) (r : Run) : (s.goOn r).reject = s.reject := rfl
@[simp] theorem State.goOn_err (s : State) (r : Run) : (s.goOn r).err = s.err := rfl
@[simp] theorem State.goOn_reason (s : State) (r : Run) : (s.goOn r).reason = s.reason := rfl
@[simp] theorem State.goOn_lastOp (s : State) (r : Run) : (s.goOn r).lastOp = s.lastOp := rfl
@[simp] theorem State.goOn_rdata (s : State) (r : Run) : (s.goOn r).rdata = s.rdata := rfl
@[simp] theorem State.goOn_failAddr (s : State) (r : Run) : (s.goOn r).failAddr = s.failAddr := rfl
@[simp] theorem State.goOn_cfgBaud (s : State) (r : Run) : (s.goOn r).cfgBaud = s.cfgBaud := rfl
@[simp] theorem State.goOn_cfgReadTimeout (s : State) (r : Run) : (s.goOn r).cfgReadTimeout = s.cfgReadTimeout := rfl
@[simp] theorem State.goOn_cfgPort (s : State) (r : Run) : (s.goOn r).cfgPort = s.cfgPort := rfl
@[simp] theorem State.goOn_cmds (s : State) (r : Run) : (s.goOn r).cmds = s.cmds := rfl
@[simp] theorem State.goOn_respLen (s : State) (r : Run) : (s.goOn r).respLen = s.respLen := rfl
@[simp] theorem State.goOn_idLens (s : State) (r : Run) : (s.goOn r).idLens = s.idLens := rfl
@[simp] theorem State.goOn_win (s : State) (r : Run) : (s.goOn r).win = s.win := rfl
@[simp] theorem State.goOn_seq (s : State) (r : Run) : (s.goOn r).seq = some r := rfl
@[simp] theorem State.goOn_stream (s : State) (r : Run) : (s.goOn r).stream = s.stream := rfl
@[simp] theorem State.goOn_rx (s : State) (r : Run) : (s.goOn r).rx = s.rx := rfl
@[simp] theorem State.goOn_held (s : State) (r : Run) : (s.goOn r).held = s.held := rfl
@[simp] theorem State.goOn_now (s : State) (r : Run) : (s.goOn r).now = s.now := rfl
@[simp] theorem State.goOn_tx (s : State) (r : Run) : (s.goOn r).tx = s.tx := rfl
@[simp] theorem State.goOn_txPending (s : State) (r : Run) : (s.goOn r).txPending = s.txPending := rfl
@[simp] theorem State.goOn_params (s : State) (r : Run) : (s.goOn r).params = s.params := rfl
@[simp] theorem State.goOn_host (s : State) (r : Run) : (s.goOn r).host = s.host := rfl
@[simp] theorem State.goOn_meddle (s : State) (r : Run) : (s.goOn r).meddle = s.meddle := rfl
@[simp] theorem State.goOn_script (s : State) (r : Run) : (s.goOn r).script = s.script := rfl
@[simp] theorem State.goOn_drawCount (s : State) (r : Run) : (s.goOn r).drawCount = s.drawCount := rfl

/-! ## accept -/

@[simp] theorem State.accept_opreq (s : State) (q : Word) (todo : List Act) : (s.accept q todo).opreq = q := rfl
@[simp] theorem State.accept_done (s : State) (q : Word) (todo : List Act) : (s.accept q todo).done = false := rfl
@[simp] theorem State.accept_result (s : State) (q : Word) (todo : List Act) : (s.accept q todo).result = false := rfl
@[simp] theorem State.accept_valid (s : State) (q : Word) (todo : List Act) : (s.accept q todo).valid = false := rfl
@[simp] theorem State.accept_ftWarn (s : State) (q : Word) (todo : List Act) : (s.accept q todo).ftWarn = false := rfl
@[simp] theorem State.accept_reject (s : State) (q : Word) (todo : List Act) : (s.accept q todo).reject = false := rfl
@[simp] theorem State.accept_err (s : State) (q : Word) (todo : List Act) : (s.accept q todo).err = .noError := rfl
@[simp] theorem State.accept_reason (s : State) (q : Word) (todo : List Act) : (s.accept q todo).reason = .ok := rfl
@[simp] theorem State.accept_lastOp (s : State) (q : Word) (todo : List Act) : (s.accept q todo).lastOp = opField q := rfl
@[simp] theorem State.accept_rdata (s : State) (q : Word) (todo : List Act) : (s.accept q todo).rdata = s.rdata := rfl
@[simp] theorem State.accept_failAddr (s : State) (q : Word) (todo : List Act) : (s.accept q todo).failAddr = s.failAddr := rfl
@[simp] theorem State.accept_cfgBaud (s : State) (q : Word) (todo : List Act) : (s.accept q todo).cfgBaud = s.cfgBaud := rfl
@[simp] theorem State.accept_cfgReadTimeout (s : State) (q : Word) (todo : List Act) : (s.accept q todo).cfgReadTimeout = s.cfgReadTimeout := rfl
@[simp] theorem State.accept_cfgPort (s : State) (q : Word) (todo : List Act) : (s.accept q todo).cfgPort = s.cfgPort := rfl
@[simp] theorem State.accept_cmds (s : State) (q : Word) (todo : List Act) : (s.accept q todo).cmds = s.cmds := rfl
@[simp] theorem State.accept_respLen (s : State) (q : Word) (todo : List Act) : (s.accept q todo).respLen = s.respLen := rfl
@[simp] theorem State.accept_idLens (s : State) (q : Word) (todo : List Act) : (s.accept q todo).idLens = s.idLens := rfl
@[simp] theorem State.accept_win (s : State) (q : Word) (todo : List Act) : (s.accept q todo).win = s.win := rfl
@[simp] theorem State.accept_seq (s : State) (q : Word) (todo : List Act) : (s.accept q todo).seq = some (startRun (opField q) todo) := rfl
@[simp] theorem State.accept_stream (s : State) (q : Word) (todo : List Act) : (s.accept q todo).stream = s.stream := rfl
@[simp] theorem State.accept_rx (s : State) (q : Word) (todo : List Act) : (s.accept q todo).rx = s.rx := rfl
@[simp] theorem State.accept_held (s : State) (q : Word) (todo : List Act) : (s.accept q todo).held = s.held := rfl
@[simp] theorem State.accept_now (s : State) (q : Word) (todo : List Act) : (s.accept q todo).now = s.now := rfl
@[simp] theorem State.accept_tx (s : State) (q : Word) (todo : List Act) : (s.accept q todo).tx = s.tx := rfl
@[simp] theorem State.accept_txPending (s : State) (q : Word) (todo : List Act) : (s.accept q todo).txPending = s.txPending := rfl
@[simp] theorem State.accept_params (s : State) (q : Word) (todo : List Act) : (s.accept q todo).params = s.params := rfl
@[simp] theorem State.accept_host (s : State) (q : Word) (todo : List Act) : (s.accept q todo).host = s.host := rfl
@[simp] theorem State.accept_meddle (s : State) (q : Word) (todo : List Act) : (s.accept q todo).meddle = s.meddle := rfl
@[simp] theorem State.accept_script (s : State) (q : Word) (todo : List Act) : (s.accept q todo).script = s.script := rfl
@[simp] theorem State.accept_drawCount (s : State) (q : Word) (todo : List Act) : (s.accept q todo).drawCount = s.drawCount := rfl

/-! ## commit -/

@[simp] theorem State.commit_opreq (s : State) (rep : Report) (w : Bool) : (s.commit rep w).opreq = s.opreq := rfl
@[simp] theorem State.commit_done (s : State) (rep : Report) (w : Bool) : (s.commit rep w).done = true := rfl
@[simp] theorem State.commit_result (s : State) (rep : Report) (w : Bool) : (s.commit rep w).result = rep.result := rfl
@[simp] theorem State.commit_valid (s : State) (rep : Report) (w : Bool) : (s.commit rep w).valid = rep.valid := rfl
@[simp] theorem State.commit_ftWarn (s : State) (rep : Report) (w : Bool) : (s.commit rep w).ftWarn = w := rfl
@[simp] theorem State.commit_reject (s : State) (rep : Report) (w : Bool) : (s.commit rep w).reject = s.reject := rfl
@[simp] theorem State.commit_err (s : State) (rep : Report) (w : Bool) : (s.commit rep w).err = rep.err := rfl
@[simp] theorem State.commit_reason (s : State) (rep : Report) (w : Bool) : (s.commit rep w).reason = rep.reason := rfl
@[simp] theorem State.commit_lastOp (s : State) (rep : Report) (w : Bool) : (s.commit rep w).lastOp = s.lastOp := rfl
@[simp] theorem State.commit_rdata (s : State) (rep : Report) (w : Bool) : (s.commit rep w).rdata = rep.rdata := rfl
@[simp] theorem State.commit_failAddr (s : State) (rep : Report) (w : Bool) : (s.commit rep w).failAddr = rep.failAddr := rfl
@[simp] theorem State.commit_cfgBaud (s : State) (rep : Report) (w : Bool) : (s.commit rep w).cfgBaud = s.cfgBaud := rfl
@[simp] theorem State.commit_cfgReadTimeout (s : State) (rep : Report) (w : Bool) : (s.commit rep w).cfgReadTimeout = s.cfgReadTimeout := rfl
@[simp] theorem State.commit_cfgPort (s : State) (rep : Report) (w : Bool) : (s.commit rep w).cfgPort = s.cfgPort := rfl
@[simp] theorem State.commit_cmds (s : State) (rep : Report) (w : Bool) : (s.commit rep w).cmds = s.cmds := rfl
@[simp] theorem State.commit_respLen (s : State) (rep : Report) (w : Bool) : (s.commit rep w).respLen = BitVec.ofNat 32 rep.resp.length := rfl
@[simp] theorem State.commit_idLens (s : State) (rep : Report) (w : Bool) : (s.commit rep w).idLens = (match rep.ident with | some i => idLensWord i | none => 0#32) := rfl
@[simp] theorem State.commit_win (s : State) (rep : Report) (w : Bool) : (s.commit rep w).win = windowImage rep.ident rep.resp := rfl
@[simp] theorem State.commit_seq (s : State) (rep : Report) (w : Bool) : (s.commit rep w).seq = none := rfl
@[simp] theorem State.commit_stream (s : State) (rep : Report) (w : Bool) : (s.commit rep w).stream = s.stream := rfl
@[simp] theorem State.commit_rx (s : State) (rep : Report) (w : Bool) : (s.commit rep w).rx = s.rx := rfl
@[simp] theorem State.commit_held (s : State) (rep : Report) (w : Bool) : (s.commit rep w).held = s.held := rfl
@[simp] theorem State.commit_now (s : State) (rep : Report) (w : Bool) : (s.commit rep w).now = s.now := rfl
@[simp] theorem State.commit_tx (s : State) (rep : Report) (w : Bool) : (s.commit rep w).tx = s.tx := rfl
@[simp] theorem State.commit_txPending (s : State) (rep : Report) (w : Bool) : (s.commit rep w).txPending = s.txPending := rfl
@[simp] theorem State.commit_params (s : State) (rep : Report) (w : Bool) : (s.commit rep w).params = s.params := rfl
@[simp] theorem State.commit_host (s : State) (rep : Report) (w : Bool) : (s.commit rep w).host = s.host := rfl
@[simp] theorem State.commit_meddle (s : State) (rep : Report) (w : Bool) : (s.commit rep w).meddle = s.meddle := rfl
@[simp] theorem State.commit_script (s : State) (rep : Report) (w : Bool) : (s.commit rep w).script = s.script := rfl
@[simp] theorem State.commit_drawCount (s : State) (rep : Report) (w : Bool) : (s.commit rep w).drawCount = s.drawCount := rfl

/-! ## rejectRequest -/

@[simp] theorem State.rejectRequest_opreq (s : State) : (s.rejectRequest).opreq = s.opreq := rfl
@[simp] theorem State.rejectRequest_done (s : State) : (s.rejectRequest).done = s.done := rfl
@[simp] theorem State.rejectRequest_result (s : State) : (s.rejectRequest).result = s.result := rfl
@[simp] theorem State.rejectRequest_valid (s : State) : (s.rejectRequest).valid = s.valid := rfl
@[simp] theorem State.rejectRequest_ftWarn (s : State) : (s.rejectRequest).ftWarn = s.ftWarn := rfl
@[simp] theorem State.rejectRequest_reject (s : State) : (s.rejectRequest).reject = true := rfl
@[simp] theorem State.rejectRequest_err (s : State) : (s.rejectRequest).err = s.err := rfl
@[simp] theorem State.rejectRequest_reason (s : State) : (s.rejectRequest).reason = s.reason := rfl
@[simp] theorem State.rejectRequest_lastOp (s : State) : (s.rejectRequest).lastOp = s.lastOp := rfl
@[simp] theorem State.rejectRequest_rdata (s : State) : (s.rejectRequest).rdata = s.rdata := rfl
@[simp] theorem State.rejectRequest_failAddr (s : State) : (s.rejectRequest).failAddr = s.failAddr := rfl
@[simp] theorem State.rejectRequest_cfgBaud (s : State) : (s.rejectRequest).cfgBaud = s.cfgBaud := rfl
@[simp] theorem State.rejectRequest_cfgReadTimeout (s : State) : (s.rejectRequest).cfgReadTimeout = s.cfgReadTimeout := rfl
@[simp] theorem State.rejectRequest_cfgPort (s : State) : (s.rejectRequest).cfgPort = s.cfgPort := rfl
@[simp] theorem State.rejectRequest_cmds (s : State) : (s.rejectRequest).cmds = s.cmds := rfl
@[simp] theorem State.rejectRequest_respLen (s : State) : (s.rejectRequest).respLen = s.respLen := rfl
@[simp] theorem State.rejectRequest_idLens (s : State) : (s.rejectRequest).idLens = s.idLens := rfl
@[simp] theorem State.rejectRequest_win (s : State) : (s.rejectRequest).win = s.win := rfl
@[simp] theorem State.rejectRequest_seq (s : State) : (s.rejectRequest).seq = s.seq := rfl
@[simp] theorem State.rejectRequest_stream (s : State) : (s.rejectRequest).stream = s.stream := rfl
@[simp] theorem State.rejectRequest_rx (s : State) : (s.rejectRequest).rx = s.rx := rfl
@[simp] theorem State.rejectRequest_held (s : State) : (s.rejectRequest).held = s.held := rfl
@[simp] theorem State.rejectRequest_now (s : State) : (s.rejectRequest).now = s.now := rfl
@[simp] theorem State.rejectRequest_tx (s : State) : (s.rejectRequest).tx = s.tx := rfl
@[simp] theorem State.rejectRequest_txPending (s : State) : (s.rejectRequest).txPending = s.txPending := rfl
@[simp] theorem State.rejectRequest_params (s : State) : (s.rejectRequest).params = s.params := rfl
@[simp] theorem State.rejectRequest_host (s : State) : (s.rejectRequest).host = s.host := rfl
@[simp] theorem State.rejectRequest_meddle (s : State) : (s.rejectRequest).meddle = s.meddle := rfl
@[simp] theorem State.rejectRequest_script (s : State) : (s.rejectRequest).script = s.script := rfl
@[simp] theorem State.rejectRequest_drawCount (s : State) : (s.rejectRequest).drawCount = s.drawCount := rfl

/-! ## dropMeddle -/

@[simp] theorem State.dropMeddle_opreq (s : State) : (s.dropMeddle).opreq = s.opreq := rfl
@[simp] theorem State.dropMeddle_done (s : State) : (s.dropMeddle).done = s.done := rfl
@[simp] theorem State.dropMeddle_result (s : State) : (s.dropMeddle).result = s.result := rfl
@[simp] theorem State.dropMeddle_valid (s : State) : (s.dropMeddle).valid = s.valid := rfl
@[simp] theorem State.dropMeddle_ftWarn (s : State) : (s.dropMeddle).ftWarn = s.ftWarn := rfl
@[simp] theorem State.dropMeddle_reject (s : State) : (s.dropMeddle).reject = s.reject := rfl
@[simp] theorem State.dropMeddle_err (s : State) : (s.dropMeddle).err = s.err := rfl
@[simp] theorem State.dropMeddle_reason (s : State) : (s.dropMeddle).reason = s.reason := rfl
@[simp] theorem State.dropMeddle_lastOp (s : State) : (s.dropMeddle).lastOp = s.lastOp := rfl
@[simp] theorem State.dropMeddle_rdata (s : State) : (s.dropMeddle).rdata = s.rdata := rfl
@[simp] theorem State.dropMeddle_failAddr (s : State) : (s.dropMeddle).failAddr = s.failAddr := rfl
@[simp] theorem State.dropMeddle_cfgBaud (s : State) : (s.dropMeddle).cfgBaud = s.cfgBaud := rfl
@[simp] theorem State.dropMeddle_cfgReadTimeout (s : State) : (s.dropMeddle).cfgReadTimeout = s.cfgReadTimeout := rfl
@[simp] theorem State.dropMeddle_cfgPort (s : State) : (s.dropMeddle).cfgPort = s.cfgPort := rfl
@[simp] theorem State.dropMeddle_cmds (s : State) : (s.dropMeddle).cmds = s.cmds := rfl
@[simp] theorem State.dropMeddle_respLen (s : State) : (s.dropMeddle).respLen = s.respLen := rfl
@[simp] theorem State.dropMeddle_idLens (s : State) : (s.dropMeddle).idLens = s.idLens := rfl
@[simp] theorem State.dropMeddle_win (s : State) : (s.dropMeddle).win = s.win := rfl
@[simp] theorem State.dropMeddle_seq (s : State) : (s.dropMeddle).seq = s.seq := rfl
@[simp] theorem State.dropMeddle_stream (s : State) : (s.dropMeddle).stream = s.stream := rfl
@[simp] theorem State.dropMeddle_rx (s : State) : (s.dropMeddle).rx = s.rx := rfl
@[simp] theorem State.dropMeddle_held (s : State) : (s.dropMeddle).held = s.held := rfl
@[simp] theorem State.dropMeddle_now (s : State) : (s.dropMeddle).now = s.now := rfl
@[simp] theorem State.dropMeddle_tx (s : State) : (s.dropMeddle).tx = s.tx := rfl
@[simp] theorem State.dropMeddle_txPending (s : State) : (s.dropMeddle).txPending = s.txPending := rfl
@[simp] theorem State.dropMeddle_params (s : State) : (s.dropMeddle).params = s.params := rfl
@[simp] theorem State.dropMeddle_host (s : State) : (s.dropMeddle).host = s.host := rfl
@[simp] theorem State.dropMeddle_meddle (s : State) : (s.dropMeddle).meddle = s.meddle.tail := rfl
@[simp] theorem State.dropMeddle_script (s : State) : (s.dropMeddle).script = s.script := rfl
@[simp] theorem State.dropMeddle_drawCount (s : State) : (s.dropMeddle).drawCount = s.drawCount := rfl

/-! ## blockReset -/

@[simp] theorem State.blockReset_opreq (s : State) (k : Nat) : (s.blockReset k).opreq = State.reset.opreq := rfl
@[simp] theorem State.blockReset_done (s : State) (k : Nat) : (s.blockReset k).done = State.reset.done := rfl
@[simp] theorem State.blockReset_result (s : State) (k : Nat) : (s.blockReset k).result = State.reset.result := rfl
@[simp] theorem State.blockReset_valid (s : State) (k : Nat) : (s.blockReset k).valid = State.reset.valid := rfl
@[simp] theorem State.blockReset_ftWarn (s : State) (k : Nat) : (s.blockReset k).ftWarn = State.reset.ftWarn := rfl
@[simp] theorem State.blockReset_reject (s : State) (k : Nat) : (s.blockReset k).reject = State.reset.reject := rfl
@[simp] theorem State.blockReset_err (s : State) (k : Nat) : (s.blockReset k).err = State.reset.err := rfl
@[simp] theorem State.blockReset_reason (s : State) (k : Nat) : (s.blockReset k).reason = State.reset.reason := rfl
@[simp] theorem State.blockReset_lastOp (s : State) (k : Nat) : (s.blockReset k).lastOp = State.reset.lastOp := rfl
@[simp] theorem State.blockReset_rdata (s : State) (k : Nat) : (s.blockReset k).rdata = State.reset.rdata := rfl
@[simp] theorem State.blockReset_failAddr (s : State) (k : Nat) : (s.blockReset k).failAddr = State.reset.failAddr := rfl
@[simp] theorem State.blockReset_cfgBaud (s : State) (k : Nat) : (s.blockReset k).cfgBaud = State.reset.cfgBaud := rfl
@[simp] theorem State.blockReset_cfgReadTimeout (s : State) (k : Nat) : (s.blockReset k).cfgReadTimeout = State.reset.cfgReadTimeout := rfl
@[simp] theorem State.blockReset_cfgPort (s : State) (k : Nat) : (s.blockReset k).cfgPort = State.reset.cfgPort := rfl
@[simp] theorem State.blockReset_cmds (s : State) (k : Nat) : (s.blockReset k).cmds = State.reset.cmds := rfl
@[simp] theorem State.blockReset_respLen (s : State) (k : Nat) : (s.blockReset k).respLen = State.reset.respLen := rfl
@[simp] theorem State.blockReset_idLens (s : State) (k : Nat) : (s.blockReset k).idLens = State.reset.idLens := rfl
@[simp] theorem State.blockReset_win (s : State) (k : Nat) : (s.blockReset k).win = State.reset.win := rfl
@[simp] theorem State.blockReset_seq (s : State) (k : Nat) : (s.blockReset k).seq = State.reset.seq := rfl
@[simp] theorem State.blockReset_stream (s : State) (k : Nat) : (s.blockReset k).stream = State.reset.stream := rfl
@[simp] theorem State.blockReset_rx (s : State) (k : Nat) : (s.blockReset k).rx = State.reset.rx := rfl
@[simp] theorem State.blockReset_held (s : State) (k : Nat) : (s.blockReset k).held = State.reset.held := rfl
@[simp] theorem State.blockReset_now (s : State) (k : Nat) : (s.blockReset k).now = s.now := rfl
@[simp] theorem State.blockReset_tx (s : State) (k : Nat) : (s.blockReset k).tx = s.tx.take (s.tx.length - s.txPending + k) := rfl
@[simp] theorem State.blockReset_txPending (s : State) (k : Nat) : (s.blockReset k).txPending = State.reset.txPending := rfl
@[simp] theorem State.blockReset_params (s : State) (k : Nat) : (s.blockReset k).params = s.params := rfl
@[simp] theorem State.blockReset_host (s : State) (k : Nat) : (s.blockReset k).host = s.host := rfl
@[simp] theorem State.blockReset_meddle (s : State) (k : Nat) : (s.blockReset k).meddle = s.meddle := rfl
@[simp] theorem State.blockReset_script (s : State) (k : Nat) : (s.blockReset k).script = s.script := rfl
@[simp] theorem State.blockReset_drawCount (s : State) (k : Nat) : (s.blockReset k).drawCount = s.drawCount := rfl

/-! ## dropDraw, arrive, environment -/

@[simp] theorem State.dropDraw_opreq (s : State) : s.dropDraw.opreq = s.opreq := by
  unfold State.dropDraw; split <;> rfl
@[simp] theorem State.dropDraw_done (s : State) : s.dropDraw.done = s.done := by
  unfold State.dropDraw; split <;> rfl
@[simp] theorem State.dropDraw_result (s : State) : s.dropDraw.result = s.result := by
  unfold State.dropDraw; split <;> rfl
@[simp] theorem State.dropDraw_valid (s : State) : s.dropDraw.valid = s.valid := by
  unfold State.dropDraw; split <;> rfl
@[simp] theorem State.dropDraw_ftWarn (s : State) : s.dropDraw.ftWarn = s.ftWarn := by
  unfold State.dropDraw; split <;> rfl
@[simp] theorem State.dropDraw_reject (s : State) : s.dropDraw.reject = s.reject := by
  unfold State.dropDraw; split <;> rfl
@[simp] theorem State.dropDraw_err (s : State) : s.dropDraw.err = s.err := by
  unfold State.dropDraw; split <;> rfl
@[simp] theorem State.dropDraw_reason (s : State) : s.dropDraw.reason = s.reason := by
  unfold State.dropDraw; split <;> rfl
@[simp] theorem State.dropDraw_lastOp (s : State) : s.dropDraw.lastOp = s.lastOp := by
  unfold State.dropDraw; split <;> rfl
@[simp] theorem State.dropDraw_rdata (s : State) : s.dropDraw.rdata = s.rdata := by
  unfold State.dropDraw; split <;> rfl
@[simp] theorem State.dropDraw_failAddr (s : State) : s.dropDraw.failAddr = s.failAddr := by
  unfold State.dropDraw; split <;> rfl
@[simp] theorem State.dropDraw_cfgBaud (s : State) : s.dropDraw.cfgBaud = s.cfgBaud := by
  unfold State.dropDraw; split <;> rfl
@[simp] theorem State.dropDraw_cfgReadTimeout (s : State) : s.dropDraw.cfgReadTimeout = s.cfgReadTimeout := by
  unfold State.dropDraw; split <;> rfl
@[simp] theorem State.dropDraw_cfgPort (s : State) : s.dropDraw.cfgPort = s.cfgPort := by
  unfold State.dropDraw; split <;> rfl
@[simp] theorem State.dropDraw_cmds (s : State) : s.dropDraw.cmds = s.cmds := by
  unfold State.dropDraw; split <;> rfl
@[simp] theorem State.dropDraw_respLen (s : State) : s.dropDraw.respLen = s.respLen := by
  unfold State.dropDraw; split <;> rfl
@[simp] theorem State.dropDraw_idLens (s : State) : s.dropDraw.idLens = s.idLens := by
  unfold State.dropDraw; split <;> rfl
@[simp] theorem State.dropDraw_win (s : State) : s.dropDraw.win = s.win := by
  unfold State.dropDraw; split <;> rfl
@[simp] theorem State.dropDraw_seq (s : State) : s.dropDraw.seq = s.seq := by
  unfold State.dropDraw; split <;> rfl
@[simp] theorem State.dropDraw_stream (s : State) : s.dropDraw.stream = s.stream := by
  unfold State.dropDraw; split <;> rfl
@[simp] theorem State.dropDraw_rx (s : State) : s.dropDraw.rx = s.rx := by
  unfold State.dropDraw; split <;> rfl
@[simp] theorem State.dropDraw_held (s : State) : s.dropDraw.held = s.held := by
  unfold State.dropDraw; split <;> rfl
@[simp] theorem State.dropDraw_now (s : State) : s.dropDraw.now = s.now := by
  unfold State.dropDraw; split <;> rfl
@[simp] theorem State.dropDraw_tx (s : State) : s.dropDraw.tx = s.tx := by
  unfold State.dropDraw; split <;> rfl
@[simp] theorem State.dropDraw_txPending (s : State) : s.dropDraw.txPending = s.txPending := by
  unfold State.dropDraw; split <;> rfl
@[simp] theorem State.dropDraw_params (s : State) : s.dropDraw.params = s.params := by
  unfold State.dropDraw; split <;> rfl
@[simp] theorem State.dropDraw_host (s : State) : s.dropDraw.host = s.host := by
  unfold State.dropDraw; split <;> rfl
@[simp] theorem State.dropDraw_meddle (s : State) : s.dropDraw.meddle = s.meddle := by
  unfold State.dropDraw; split <;> rfl
@[simp] theorem State.arrive_opreq (s : State) (bs : List Byte) : (s.arrive bs).opreq = s.opreq := by
  unfold State.arrive; repeat' split
  all_goals rfl
@[simp] theorem State.arrive_done (s : State) (bs : List Byte) : (s.arrive bs).done = s.done := by
  unfold State.arrive; repeat' split
  all_goals rfl
@[simp] theorem State.arrive_result (s : State) (bs : List Byte) : (s.arrive bs).result = s.result := by
  unfold State.arrive; repeat' split
  all_goals rfl
@[simp] theorem State.arrive_valid (s : State) (bs : List Byte) : (s.arrive bs).valid = s.valid := by
  unfold State.arrive; repeat' split
  all_goals rfl
@[simp] theorem State.arrive_ftWarn (s : State) (bs : List Byte) : (s.arrive bs).ftWarn = s.ftWarn := by
  unfold State.arrive; repeat' split
  all_goals rfl
@[simp] theorem State.arrive_reject (s : State) (bs : List Byte) : (s.arrive bs).reject = s.reject := by
  unfold State.arrive; repeat' split
  all_goals rfl
@[simp] theorem State.arrive_err (s : State) (bs : List Byte) : (s.arrive bs).err = s.err := by
  unfold State.arrive; repeat' split
  all_goals rfl
@[simp] theorem State.arrive_reason (s : State) (bs : List Byte) : (s.arrive bs).reason = s.reason := by
  unfold State.arrive; repeat' split
  all_goals rfl
@[simp] theorem State.arrive_lastOp (s : State) (bs : List Byte) : (s.arrive bs).lastOp = s.lastOp := by
  unfold State.arrive; repeat' split
  all_goals rfl
@[simp] theorem State.arrive_rdata (s : State) (bs : List Byte) : (s.arrive bs).rdata = s.rdata := by
  unfold State.arrive; repeat' split
  all_goals rfl
@[simp] theorem State.arrive_failAddr (s : State) (bs : List Byte) : (s.arrive bs).failAddr = s.failAddr := by
  unfold State.arrive; repeat' split
  all_goals rfl
@[simp] theorem State.arrive_cfgBaud (s : State) (bs : List Byte) : (s.arrive bs).cfgBaud = s.cfgBaud := by
  unfold State.arrive; repeat' split
  all_goals rfl
@[simp] theorem State.arrive_cfgReadTimeout (s : State) (bs : List Byte) : (s.arrive bs).cfgReadTimeout = s.cfgReadTimeout := by
  unfold State.arrive; repeat' split
  all_goals rfl
@[simp] theorem State.arrive_cfgPort (s : State) (bs : List Byte) : (s.arrive bs).cfgPort = s.cfgPort := by
  unfold State.arrive; repeat' split
  all_goals rfl
@[simp] theorem State.arrive_cmds (s : State) (bs : List Byte) : (s.arrive bs).cmds = s.cmds := by
  unfold State.arrive; repeat' split
  all_goals rfl
@[simp] theorem State.arrive_respLen (s : State) (bs : List Byte) : (s.arrive bs).respLen = s.respLen := by
  unfold State.arrive; repeat' split
  all_goals rfl
@[simp] theorem State.arrive_idLens (s : State) (bs : List Byte) : (s.arrive bs).idLens = s.idLens := by
  unfold State.arrive; repeat' split
  all_goals rfl
@[simp] theorem State.arrive_win (s : State) (bs : List Byte) : (s.arrive bs).win = s.win := by
  unfold State.arrive; repeat' split
  all_goals rfl
@[simp] theorem State.arrive_seq (s : State) (bs : List Byte) : (s.arrive bs).seq = s.seq := by
  unfold State.arrive; repeat' split
  all_goals rfl
@[simp] theorem State.arrive_stream (s : State) (bs : List Byte) : (s.arrive bs).stream = s.stream := by
  unfold State.arrive; repeat' split
  all_goals rfl
@[simp] theorem State.arrive_now (s : State) (bs : List Byte) : (s.arrive bs).now = s.now := by
  unfold State.arrive; repeat' split
  all_goals rfl
@[simp] theorem State.arrive_tx (s : State) (bs : List Byte) : (s.arrive bs).tx = s.tx := by
  unfold State.arrive; repeat' split
  all_goals rfl
@[simp] theorem State.arrive_txPending (s : State) (bs : List Byte) : (s.arrive bs).txPending = s.txPending := by
  unfold State.arrive; repeat' split
  all_goals rfl
@[simp] theorem State.arrive_params (s : State) (bs : List Byte) : (s.arrive bs).params = s.params := by
  unfold State.arrive; repeat' split
  all_goals rfl
@[simp] theorem State.arrive_host (s : State) (bs : List Byte) : (s.arrive bs).host = s.host := by
  unfold State.arrive; repeat' split
  all_goals rfl
@[simp] theorem State.arrive_meddle (s : State) (bs : List Byte) : (s.arrive bs).meddle = s.meddle := by
  unfold State.arrive; repeat' split
  all_goals rfl
@[simp] theorem State.arrive_script (s : State) (bs : List Byte) : (s.arrive bs).script = s.script := by
  unfold State.arrive; repeat' split
  all_goals rfl
@[simp] theorem State.arrive_drawCount (s : State) (bs : List Byte) : (s.arrive bs).drawCount = s.drawCount := by
  unfold State.arrive; repeat' split
  all_goals rfl
@[simp] theorem State.environment_opreq (s : State) : s.environment.opreq = s.opreq := by simp [State.environment]
@[simp] theorem State.environment_done (s : State) : s.environment.done = s.done := by simp [State.environment]
@[simp] theorem State.environment_result (s : State) : s.environment.result = s.result := by simp [State.environment]
@[simp] theorem State.environment_valid (s : State) : s.environment.valid = s.valid := by simp [State.environment]
@[simp] theorem State.environment_ftWarn (s : State) : s.environment.ftWarn = s.ftWarn := by simp [State.environment]
@[simp] theorem State.environment_reject (s : State) : s.environment.reject = s.reject := by simp [State.environment]
@[simp] theorem State.environment_err (s : State) : s.environment.err = s.err := by simp [State.environment]
@[simp] theorem State.environment_reason (s : State) : s.environment.reason = s.reason := by simp [State.environment]
@[simp] theorem State.environment_lastOp (s : State) : s.environment.lastOp = s.lastOp := by simp [State.environment]
@[simp] theorem State.environment_rdata (s : State) : s.environment.rdata = s.rdata := by simp [State.environment]
@[simp] theorem State.environment_failAddr (s : State) : s.environment.failAddr = s.failAddr := by simp [State.environment]
@[simp] theorem State.environment_cfgBaud (s : State) : s.environment.cfgBaud = s.cfgBaud := by simp [State.environment]
@[simp] theorem State.environment_cfgReadTimeout (s : State) : s.environment.cfgReadTimeout = s.cfgReadTimeout := by simp [State.environment]
@[simp] theorem State.environment_cfgPort (s : State) : s.environment.cfgPort = s.cfgPort := by simp [State.environment]
@[simp] theorem State.environment_cmds (s : State) : s.environment.cmds = s.cmds := by simp [State.environment]
@[simp] theorem State.environment_respLen (s : State) : s.environment.respLen = s.respLen := by simp [State.environment]
@[simp] theorem State.environment_idLens (s : State) : s.environment.idLens = s.idLens := by simp [State.environment]
@[simp] theorem State.environment_win (s : State) : s.environment.win = s.win := by simp [State.environment]
@[simp] theorem State.environment_seq (s : State) : s.environment.seq = s.seq := by simp [State.environment]
@[simp] theorem State.environment_stream (s : State) : s.environment.stream = s.stream := by simp [State.environment]
@[simp] theorem State.environment_tx (s : State) : s.environment.tx = s.tx := by simp [State.environment]
@[simp] theorem State.environment_txPending (s : State) : s.environment.txPending = s.txPending := by simp [State.environment]
@[simp] theorem State.environment_params (s : State) : s.environment.params = s.params := by simp [State.environment]
@[simp] theorem State.environment_host (s : State) : s.environment.host = s.host := by simp [State.environment]
@[simp] theorem State.environment_meddle (s : State) : s.environment.meddle = s.meddle := by simp [State.environment]
@[simp] theorem State.environment_now (s : State) : s.environment.now = s.now + s.nextDraw.elapsed := by
  simp [State.environment]

/-! ## writeConfig: only the configuration registers and the command list may change -/

@[simp] theorem State.writeConfig_opreq (s : State) (i : BitVec 10) (v : Word) : (s.writeConfig i v).opreq = s.opreq := by
  unfold State.writeConfig; split_ifs <;> rfl
@[simp] theorem State.writeConfig_done (s : State) (i : BitVec 10) (v : Word) : (s.writeConfig i v).done = s.done := by
  unfold State.writeConfig; split_ifs <;> rfl
@[simp] theorem State.writeConfig_result (s : State) (i : BitVec 10) (v : Word) : (s.writeConfig i v).result = s.result := by
  unfold State.writeConfig; split_ifs <;> rfl
@[simp] theorem State.writeConfig_valid (s : State) (i : BitVec 10) (v : Word) : (s.writeConfig i v).valid = s.valid := by
  unfold State.writeConfig; split_ifs <;> rfl
@[simp] theorem State.writeConfig_ftWarn (s : State) (i : BitVec 10) (v : Word) : (s.writeConfig i v).ftWarn = s.ftWarn := by
  unfold State.writeConfig; split_ifs <;> rfl
@[simp] theorem State.writeConfig_reject (s : State) (i : BitVec 10) (v : Word) : (s.writeConfig i v).reject = s.reject := by
  unfold State.writeConfig; split_ifs <;> rfl
@[simp] theorem State.writeConfig_err (s : State) (i : BitVec 10) (v : Word) : (s.writeConfig i v).err = s.err := by
  unfold State.writeConfig; split_ifs <;> rfl
@[simp] theorem State.writeConfig_reason (s : State) (i : BitVec 10) (v : Word) : (s.writeConfig i v).reason = s.reason := by
  unfold State.writeConfig; split_ifs <;> rfl
@[simp] theorem State.writeConfig_lastOp (s : State) (i : BitVec 10) (v : Word) : (s.writeConfig i v).lastOp = s.lastOp := by
  unfold State.writeConfig; split_ifs <;> rfl
@[simp] theorem State.writeConfig_rdata (s : State) (i : BitVec 10) (v : Word) : (s.writeConfig i v).rdata = s.rdata := by
  unfold State.writeConfig; split_ifs <;> rfl
@[simp] theorem State.writeConfig_failAddr (s : State) (i : BitVec 10) (v : Word) : (s.writeConfig i v).failAddr = s.failAddr := by
  unfold State.writeConfig; split_ifs <;> rfl
@[simp] theorem State.writeConfig_respLen (s : State) (i : BitVec 10) (v : Word) : (s.writeConfig i v).respLen = s.respLen := by
  unfold State.writeConfig; split_ifs <;> rfl
@[simp] theorem State.writeConfig_idLens (s : State) (i : BitVec 10) (v : Word) : (s.writeConfig i v).idLens = s.idLens := by
  unfold State.writeConfig; split_ifs <;> rfl
@[simp] theorem State.writeConfig_win (s : State) (i : BitVec 10) (v : Word) : (s.writeConfig i v).win = s.win := by
  unfold State.writeConfig; split_ifs <;> rfl
@[simp] theorem State.writeConfig_seq (s : State) (i : BitVec 10) (v : Word) : (s.writeConfig i v).seq = s.seq := by
  unfold State.writeConfig; split_ifs <;> rfl
@[simp] theorem State.writeConfig_stream (s : State) (i : BitVec 10) (v : Word) : (s.writeConfig i v).stream = s.stream := by
  unfold State.writeConfig; split_ifs <;> rfl
@[simp] theorem State.writeConfig_rx (s : State) (i : BitVec 10) (v : Word) : (s.writeConfig i v).rx = s.rx := by
  unfold State.writeConfig; split_ifs <;> rfl
@[simp] theorem State.writeConfig_held (s : State) (i : BitVec 10) (v : Word) : (s.writeConfig i v).held = s.held := by
  unfold State.writeConfig; split_ifs <;> rfl
@[simp] theorem State.writeConfig_now (s : State) (i : BitVec 10) (v : Word) : (s.writeConfig i v).now = s.now := by
  unfold State.writeConfig; split_ifs <;> rfl
@[simp] theorem State.writeConfig_tx (s : State) (i : BitVec 10) (v : Word) : (s.writeConfig i v).tx = s.tx := by
  unfold State.writeConfig; split_ifs <;> rfl
@[simp] theorem State.writeConfig_txPending (s : State) (i : BitVec 10) (v : Word) : (s.writeConfig i v).txPending = s.txPending := by
  unfold State.writeConfig; split_ifs <;> rfl
@[simp] theorem State.writeConfig_params (s : State) (i : BitVec 10) (v : Word) : (s.writeConfig i v).params = s.params := by
  unfold State.writeConfig; split_ifs <;> rfl
@[simp] theorem State.writeConfig_host (s : State) (i : BitVec 10) (v : Word) : (s.writeConfig i v).host = s.host := by
  unfold State.writeConfig; split_ifs <;> rfl
@[simp] theorem State.writeConfig_meddle (s : State) (i : BitVec 10) (v : Word) : (s.writeConfig i v).meddle = s.meddle := by
  unfold State.writeConfig; split_ifs <;> rfl
@[simp] theorem State.writeConfig_script (s : State) (i : BitVec 10) (v : Word) : (s.writeConfig i v).script = s.script := by
  unfold State.writeConfig; split_ifs <;> rfl
@[simp] theorem State.writeConfig_drawCount (s : State) (i : BitVec 10) (v : Word) : (s.writeConfig i v).drawCount = s.drawCount := by
  unfold State.writeConfig; split_ifs <;> rfl

/-! ## writeBusy: only REJECT may change -/

@[simp] theorem State.writeBusy_opreq (s : State) (i : BitVec 10) (v : Word) : (s.writeBusy i v).opreq = s.opreq := by
  unfold State.writeBusy; split <;> rfl
@[simp] theorem State.writeBusy_done (s : State) (i : BitVec 10) (v : Word) : (s.writeBusy i v).done = s.done := by
  unfold State.writeBusy; split <;> rfl
@[simp] theorem State.writeBusy_result (s : State) (i : BitVec 10) (v : Word) : (s.writeBusy i v).result = s.result := by
  unfold State.writeBusy; split <;> rfl
@[simp] theorem State.writeBusy_valid (s : State) (i : BitVec 10) (v : Word) : (s.writeBusy i v).valid = s.valid := by
  unfold State.writeBusy; split <;> rfl
@[simp] theorem State.writeBusy_ftWarn (s : State) (i : BitVec 10) (v : Word) : (s.writeBusy i v).ftWarn = s.ftWarn := by
  unfold State.writeBusy; split <;> rfl
@[simp] theorem State.writeBusy_err (s : State) (i : BitVec 10) (v : Word) : (s.writeBusy i v).err = s.err := by
  unfold State.writeBusy; split <;> rfl
@[simp] theorem State.writeBusy_reason (s : State) (i : BitVec 10) (v : Word) : (s.writeBusy i v).reason = s.reason := by
  unfold State.writeBusy; split <;> rfl
@[simp] theorem State.writeBusy_lastOp (s : State) (i : BitVec 10) (v : Word) : (s.writeBusy i v).lastOp = s.lastOp := by
  unfold State.writeBusy; split <;> rfl
@[simp] theorem State.writeBusy_rdata (s : State) (i : BitVec 10) (v : Word) : (s.writeBusy i v).rdata = s.rdata := by
  unfold State.writeBusy; split <;> rfl
@[simp] theorem State.writeBusy_failAddr (s : State) (i : BitVec 10) (v : Word) : (s.writeBusy i v).failAddr = s.failAddr := by
  unfold State.writeBusy; split <;> rfl
@[simp] theorem State.writeBusy_cfgBaud (s : State) (i : BitVec 10) (v : Word) : (s.writeBusy i v).cfgBaud = s.cfgBaud := by
  unfold State.writeBusy; split <;> rfl
@[simp] theorem State.writeBusy_cfgReadTimeout (s : State) (i : BitVec 10) (v : Word) : (s.writeBusy i v).cfgReadTimeout = s.cfgReadTimeout := by
  unfold State.writeBusy; split <;> rfl
@[simp] theorem State.writeBusy_cfgPort (s : State) (i : BitVec 10) (v : Word) : (s.writeBusy i v).cfgPort = s.cfgPort := by
  unfold State.writeBusy; split <;> rfl
@[simp] theorem State.writeBusy_cmds (s : State) (i : BitVec 10) (v : Word) : (s.writeBusy i v).cmds = s.cmds := by
  unfold State.writeBusy; split <;> rfl
@[simp] theorem State.writeBusy_respLen (s : State) (i : BitVec 10) (v : Word) : (s.writeBusy i v).respLen = s.respLen := by
  unfold State.writeBusy; split <;> rfl
@[simp] theorem State.writeBusy_idLens (s : State) (i : BitVec 10) (v : Word) : (s.writeBusy i v).idLens = s.idLens := by
  unfold State.writeBusy; split <;> rfl
@[simp] theorem State.writeBusy_win (s : State) (i : BitVec 10) (v : Word) : (s.writeBusy i v).win = s.win := by
  unfold State.writeBusy; split <;> rfl
@[simp] theorem State.writeBusy_seq (s : State) (i : BitVec 10) (v : Word) : (s.writeBusy i v).seq = s.seq := by
  unfold State.writeBusy; split <;> rfl
@[simp] theorem State.writeBusy_stream (s : State) (i : BitVec 10) (v : Word) : (s.writeBusy i v).stream = s.stream := by
  unfold State.writeBusy; split <;> rfl
@[simp] theorem State.writeBusy_rx (s : State) (i : BitVec 10) (v : Word) : (s.writeBusy i v).rx = s.rx := by
  unfold State.writeBusy; split <;> rfl
@[simp] theorem State.writeBusy_held (s : State) (i : BitVec 10) (v : Word) : (s.writeBusy i v).held = s.held := by
  unfold State.writeBusy; split <;> rfl
@[simp] theorem State.writeBusy_now (s : State) (i : BitVec 10) (v : Word) : (s.writeBusy i v).now = s.now := by
  unfold State.writeBusy; split <;> rfl
@[simp] theorem State.writeBusy_tx (s : State) (i : BitVec 10) (v : Word) : (s.writeBusy i v).tx = s.tx := by
  unfold State.writeBusy; split <;> rfl
@[simp] theorem State.writeBusy_txPending (s : State) (i : BitVec 10) (v : Word) : (s.writeBusy i v).txPending = s.txPending := by
  unfold State.writeBusy; split <;> rfl
@[simp] theorem State.writeBusy_params (s : State) (i : BitVec 10) (v : Word) : (s.writeBusy i v).params = s.params := by
  unfold State.writeBusy; split <;> rfl
@[simp] theorem State.writeBusy_host (s : State) (i : BitVec 10) (v : Word) : (s.writeBusy i v).host = s.host := by
  unfold State.writeBusy; split <;> rfl
@[simp] theorem State.writeBusy_meddle (s : State) (i : BitVec 10) (v : Word) : (s.writeBusy i v).meddle = s.meddle := by
  unfold State.writeBusy; split <;> rfl
@[simp] theorem State.writeBusy_script (s : State) (i : BitVec 10) (v : Word) : (s.writeBusy i v).script = s.script := by
  unfold State.writeBusy; split <;> rfl
@[simp] theorem State.writeBusy_drawCount (s : State) (i : BitVec 10) (v : Word) : (s.writeBusy i v).drawCount = s.drawCount := by
  unfold State.writeBusy; split <;> rfl

end Sys2Proof.Machine
end

