-- ==== Sys2Proof/Laws/Ops.lean ====
section
/-! SUPPORT. What each shared operation of Machine/Ops.lean can do, said once. -/

namespace Sys2Proof.Machine

/-! ## The environment -/

@[simp] theorem State.busy_iff (s : State) : s.busy = true ↔ ∃ r, s.seq = some r := by
  simp [State.busy, Option.isSome_iff_exists]

/-- A scripted draw is the next draw. -/
theorem State.nextDraw_cons {s : State} {d : Draw} {ds : List Draw} (h : s.script = d :: ds) : s.nextDraw = d := by
  simp [State.nextDraw, h]

/-- Taking a scripted draw only shortens the script. -/
theorem State.dropDraw_cons {s : State} {d : Draw} {ds : List Draw} (h : s.script = d :: ds) :
    s.dropDraw = { s with script := ds } := by
  simp [State.dropDraw, h]

/-- On a closed stream the bytes of the sensor are lost (R37). -/
theorem State.arrive_closed {s : State} (h : s.stream.isOpen = false) (bs : List Byte) : s.arrive bs = s := by
  simp [State.arrive, h]

/-- On an open stream with an unbounded FIFO every byte is appended (R37). -/
theorem State.arrive_unbounded {s : State} (h : s.stream.isOpen = true) (hd : s.params.rxFifoDepth = none)
    (bs : List Byte) : s.arrive bs = { s with rx := s.rx ++ bs } := by
  simp [State.arrive, h, hd]

/-- With no byte arriving and none waiting, a FIFO within its depth stays as it is. -/
theorem State.arrive_nil {s : State} (hh : s.held = []) (hf : s.fifoWithinDepth) : s.arrive [] = s := by
  unfold State.arrive
  split
  · cases hd : s.params.rxFifoDepth with
    | none => simp
    | some n =>
      have hn := hf n hd
      cases s.params.rxOverflow
      · simp
      · simp [Nat.sub_eq_zero_of_le hn]
      · simp only [hh, List.append_nil, List.take_nil, List.drop_nil]
        cases s; simp_all
  · rfl

/-- An arrival keeps the FIFO within its depth. -/
theorem State.arrive_fifoWithinDepth {s : State} (hf : s.fifoWithinDepth) (bs : List Byte) :
    (s.arrive bs).fifoWithinDepth := by
  intro n hn
  rw [State.arrive_params] at hn
  have h := hf n hn
  unfold State.arrive
  split
  · rw [hn]
    cases s.params.rxOverflow
    · simp; omega
    · simp; omega
    · simp; omega
  · exact h

/-! ## A failure and where it ends -/

/-- What a failure that walks over the positions `l` meets. -/
def unwindMeets (l : List Act) : Prop :=
  (∃ pre p start rest, l = pre ++ .pollTest p start :: rest ∧ unwind pre = none ∧
    unwind l = some (.sleep p.interval :: .pollCheck p start :: rest, false)) ∨
  (∃ pre g rest, l = pre ++ .leave g :: rest ∧ unwind pre = none ∧ unwind l = some (rest, g == .flashTest)) ∨
  unwind l = none

/-- A position that stops no failure is passed over. -/
theorem unwindMeets_cons {a : Act} {l : List Act} (ha : ∀ m, unwind (a :: m) = unwind m) (h : unwindMeets l) :
    unwindMeets (a :: l) := by
  rcases h with ⟨pre, p, start, rest, h, hp, hu⟩ | ⟨pre, g, rest, h, hp, hu⟩ | hu
  · exact .inl ⟨a :: pre, p, start, rest, by rw [h]; rfl, by rw [ha, hp], by rw [ha, hu]⟩
  · exact .inr (.inl ⟨a :: pre, g, rest, by rw [h]; rfl, by rw [ha, hp], by rw [ha, hu]⟩)
  · exact .inr (.inr (by rw [ha, hu]))

/-- Everything a failure can meet: a poll's attempt, the end of a non-fatal part, or nothing that stops it. -/
theorem unwind_cases (l : List Act) : unwindMeets l := by
  induction l with
  | nil => exact .inr (.inr rfl)
  | cons a l ih =>
    cases a
    case pollTest p start => exact .inl ⟨[], p, start, l, rfl, rfl, rfl⟩
    case leave g => exact .inr (.inl ⟨[], g, l, rfl, rfl, rfl⟩)
    all_goals exact unwindMeets_cons (fun _ => rfl) ih

/-- A failure either goes on with the same operation and an empty buffer, or completes the operation (R265). -/
theorem State.failWith_cases (s : State) (r : Run) (f : Failure) :
    (∃ todo w, unwind r.todo = some (todo, w) ∧
      s.failWith r f = s.goOn { r with todo := todo, buf := [], ftw := r.ftw || w }) ∨
    (unwind r.todo = none ∧ s.failWith r f = s.completeFail r f) := by
  unfold State.failWith
  cases h : unwind r.todo with
  | none => exact .inr ⟨rfl, rfl⟩
  | some p => exact .inl ⟨p.1, p.2, rfl, rfl⟩

/-! ## The host window -/

/-- Everything a host write to an idle block other than a request can do (R20, R23). -/
theorem State.writeConfig_cases (s : State) (i : BitVec 10) (v : Word) :
    (i = 0x04#10 ∧ s.writeConfig i v = { s with cfgBaud := v }) ∨
    (i = 0x05#10 ∧ s.writeConfig i v = { s with cfgReadTimeout := v }) ∨
    (i = 0x06#10 ∧ s.writeConfig i v = { s with cfgPort := v }) ∨
    (∃ (k : Nat) (hk : k < 8), i.toNat = 0x08 + k ∧ s.writeConfig i v = { s with cmds := s.cmds.set k v hk }) ∨
    (¬((4 ≤ i.toNat ∧ i.toNat ≤ 6) ∨ (8 ≤ i.toNat ∧ i.toNat ≤ 15)) ∧ s.writeConfig i v = s) := by
  have hi : ∀ n : Nat, n < 1024 → (i = BitVec.ofNat 10 n ↔ i.toNat = n) := fun n hn => by
    rw [← BitVec.toNat_inj, BitVec.toNat_ofNat, Nat.mod_eq_of_lt hn]
  unfold State.writeConfig
  split
  · exact .inl ⟨‹_›, rfl⟩
  split
  · exact .inr (.inl ⟨‹_›, rfl⟩)
  split
  · exact .inr (.inr (.inl ⟨‹_›, rfl⟩))
  split
  · rename_i h
    have hk : i.toNat - 8 < 8 := by omega
    have hc : s.cmds.setIfInBounds (i.toNat - 8) v = s.cmds.set (i.toNat - 8) v hk := by
      ext j hj
      simp [Vector.getElem_setIfInBounds, Vector.getElem_set]
    exact .inr (.inr (.inr (.inl ⟨_, hk, by omega, by rw [hc]⟩)))
  · rename_i h4 h5 h6 h8
    rw [hi _ (by omega)] at h4 h5 h6
    exact .inr (.inr (.inr (.inr ⟨by omega, rfl⟩)))

/-- The host reads a register at word indexes 0x00 to 0x10, the bytes of a byte-string register at its own offsets, and
0 anywhere else (R19, R20). -/
theorem State.hostRead_cases (s : State) (i : BitVec 10) :
    (i.toNat < 0x11 ∧ s.hostRead i = s.registers.getD i.toNat 0#32) ∨
    (inByteString i.toNat = true ∧ s.hostRead i = s.windowWord (4 * i.toNat)) ∨
    (0x11 ≤ i.toNat ∧ inByteString i.toNat = false ∧ s.hostRead i = 0#32) := by
  unfold State.hostRead
  split
  · exact .inr (.inl ⟨‹_›, rfl⟩)
  · rename_i h
    by_cases hi : i.toNat < 0x11
    · exact .inl ⟨hi, rfl⟩
    · refine .inr (.inr ⟨by omega, by simpa using h, ?_⟩)
      rw [List.getD_eq_default]
      simp [State.registers]
      omega

/-- Everything a host write to a busy block can do (R23, R35). -/
theorem State.writeBusy_cases (s : State) (i : BitVec 10) (v : Word) :
    (i = opreqIndex ∧ s.writeBusy i v = s.rejectRequest) ∨ (i ≠ opreqIndex ∧ s.writeBusy i v = s) := by
  unfold State.writeBusy
  split
  · exact .inl ⟨‹_›, rfl⟩
  · exact .inr ⟨‹_›, rfl⟩

/-! ## Acceptance and completion, in the statements' terms -/

/-- A completion after an acceptance is what `reports` says (R33, R34). -/
theorem State.accept_commit (s : State) (q : Word) (todo : List Act) (rep : Report) (w : Bool) :
    (s.accept q todo).commit rep w = s.reports q rep w := rfl

/-- A refused request is reported as R102 says. -/
theorem State.refuse_eq (s : State) (q : Word) :
    s.refuse q = s.reports q (failReport .refused) false := by
  simp only [State.refuse, State.completeFail, reportedFtWarn, startRun, Bool.and_false]
  rfl

/-- The Pass report of an operation that carries no value. -/
theorem passReport_plain {r : Run} (h3 : returnsBytes r.op = false) (h6 : returnsWord r.op = false)
    (h7 : returnsIdentity r.op = false) : passReport r = Report.passed := by
  simp [passReport, Report.passed, h3, h6, h7]

end Sys2Proof.Machine
end

