-- ==== Sys2Proof/Laws/Sequencer.lean ====
section
/-! SUPPORT. What one step of the sequencer, a run of it, an instruction and a step of the machine can do, each said
once: the inversion lemmas from which every invariant follows. -/

namespace Sys2Proof.Machine

/-! ## One position -/

/-- The parts of the state that a step of a running operation may change while the operation goes on. -/
structure Moved (s : State) (r : Run) (t : State) : Prop where
  goes : ∃ (r' : Run) (stream : Stream) (rx held : List Byte) (now : Nat) (tx : List Byte) (txPending : Nat),
    t = { s with stream := stream, rx := rx, held := held, now := now, tx := tx, txPending := txPending,
                 seq := some r' } ∧
    r'.op = r.op ∧ s.now ≤ now ∧ (tx = s.tx ∨ ∃ b, tx = s.tx ++ [b]) ∧ rx.length ≤ s.rx.length ∧
    (r'.ident = r.ident ∨ ∃ i, r'.ident = some i ∧ i.fits)

/-- A decoded identity record fits its registers (R20, R185). -/
theorem identityOf_fits {p : Params} {ws : List Half} {i : Identity} (h : identityOf p ws = some i) : i.fits := by
  unfold identityOf at h
  split at h
  · cases h; exact ⟨List.length_take_le _ _, List.length_take_le _ _, List.length_take_le _ _⟩
  · cases h

/-- Going on with the same operation and nothing else changed. -/
theorem State.goOn_moved (s : State) (r r' : Run) (h : r'.op = r.op)
    (hi : r'.ident = r.ident ∨ ∃ i, r'.ident = some i ∧ i.fits) : Moved s r (s.goOn r') :=
  ⟨r', s.stream, s.rx, s.held, s.now, s.tx, s.txPending, rfl, h, Nat.le_refl _, .inl rfl, Nat.le_refl _, hi⟩

/-- A failure goes on with the operation or completes it. -/
theorem State.failWith_moved (s : State) (r : Run) (f : Failure) :
    Moved s r (s.failWith r f) ∨ s.failWith r f = s.completeFail r f := by
  rcases s.failWith_cases r f with ⟨todo, w, -, h⟩ | ⟨-, h⟩
  · exact .inl (h ▸ s.goOn_moved r _ rfl (.inl rfl))
  · exact .inr h

/-- Everything one position of an operation can do: the operation goes on, or a failure completes it. -/
theorem State.act_cases (s : State) (r : Run) (d : Draw) (a : Act) :
    Moved s r (s.act r d a) ∨ ∃ f, s.act r d a = s.completeFail r f := by
  have fail : ∀ f, Moved s r (s.failWith r f) ∨ ∃ g, s.failWith r f = s.completeFail r g := fun f =>
    (s.failWith_moved r f).imp id (fun h => ⟨f, h⟩)
  cases a with
  | openStream =>
    simp only [State.act, State.openStream]
    split
    · exact fail _
    · split
      · exact fail _
      · exact .inl ⟨r, _, [], [], s.now, s.tx, s.txPending, rfl, rfl, Nat.le_refl _, .inl rfl, by simp,
          .inl rfl⟩
  | closeStream =>
    exact .inl ⟨r, _, s.rx, [], s.now, s.tx, s.txPending, rfl, rfl, Nat.le_refl _, .inl rfl, Nat.le_refl _, .inl rfl⟩
  | frame c rep =>
    simp only [State.act, State.startFrame]
    split
    · exact .inl (s.goOn_moved r _ rfl (.inl rfl))
    · exact fail _
  | tx b rep =>
    simp only [State.act, State.txByte]
    split
    · exact fail _
    · exact .inl ⟨r, s.stream, s.rx, s.held, s.now, _, _, rfl, rfl, Nat.le_refl _, .inr ⟨b, rfl⟩,
        Nat.le_refl _, .inl rfl⟩
  | flush len rep =>
    simp only [State.act, State.flushTx]
    split
    · exact fail _
    · refine .inl ⟨_, s.stream, s.rx, s.held, s.now, s.tx, 0, rfl, ?_, Nat.le_refl _, .inl rfl, Nat.le_refl _, .inl ?_⟩
      all_goals split <;> rfl
  | rx need last rep =>
    simp only [State.act, State.rxByte]
    split
    · exact .inl (s.goOn_moved r _ rfl (.inl rfl))
    · split
      · rename_i b bs hb
        exact .inl ⟨_, s.stream, bs, s.held, s.now, s.tx, s.txPending, rfl, rfl, Nat.le_refl _, .inl rfl,
          by simp [hb], .inl rfl⟩
      · split
        · exact fail _
        · exact .inl (s.goOn_moved r _ rfl (.inl rfl))
  | sleep ms =>
    exact .inl ⟨r, s.stream, s.rx, s.held, s.now + ms, s.tx, s.txPending, rfl, rfl, by omega, .inl rfl, Nat.le_refl _, .inl rfl⟩
  | parse rep =>
    simp only [State.act, State.parseResponse]
    split
    · exact .inl (s.goOn_moved r _ rfl (.inl rfl))
    · exact fail _
  | verifyClear mask =>
    simp only [State.act]
    split
    · exact .inl (s.goOn_moved r _ rfl (.inl rfl))
    · exact fail _
  | confirmSet mask =>
    simp only [State.act]
    split
    · exact fail _
    · exact .inl (s.goOn_moved r _ rfl (.inl rfl))
  | keepWord => exact .inl (s.goOn_moved r _ rfl (.inl rfl))
  | decodeIdentity =>
    simp only [State.act, State.decodeIdentity]
    split
    · exact .inl (s.goOn_moved r _ rfl (.inr ⟨_, rfl, identityOf_fits ‹_›⟩))
    · exact fail _
  | pollStart p => exact .inl (s.goOn_moved r _ rfl (.inl rfl))
  | pollCheck p start =>
    simp only [State.act, State.checkPoll]
    split
    · exact fail _
    · exact .inl (s.goOn_moved r _ rfl (.inl rfl))
  | pollTest p start =>
    simp only [State.act, State.testPoll]
    split
    · exact .inl (s.goOn_moved r _ rfl (.inl rfl))
    · exact .inl (s.goOn_moved r _ rfl (.inl rfl))
  | enter g => exact .inl (s.goOn_moved r _ rfl (.inl rfl))
  | leave g => exact .inl (s.goOn_moved r _ rfl (.inl rfl))

/-- Everything the running operation's next step can do. -/
theorem State.advance_cases {s : State} {r : Run} (h : s.seq = some r) (d : Draw) :
    Moved s r (s.advance d) ∨ s.advance d = s.pass r ∨
      ∃ r' f, r'.op = r.op ∧ r'.ftw = r.ftw ∧ s.advance d = s.completeFail r' f := by
  unfold State.advance
  rw [h]
  dsimp only
  cases ht : r.todo with
  | nil => exact .inr (.inl rfl)
  | cons a rest =>
    rcases s.act_cases { r with todo := rest } d a with hm | ⟨f, hf⟩
    · exact .inl ⟨hm.goes⟩
    · exact .inr (.inr ⟨{ r with todo := rest }, f, rfl, rfl, hf⟩)

/-! ## One step of the block -/

/-- Everything a step of the block can do: with no operation running only the environment acts; else the environment
acts, the host may reset or write to the block, and the operation does its next step. -/
theorem State.tick_cases (s : State) :
    (s.seq = none ∧ s.tick = s.environment) ∨
    (∃ m, s.meddle = .reset :: m ∧ s.busy = true ∧
      s.tick = s.environment.dropMeddle.blockReset s.nextDraw.resetSends) ∨
    (∃ i v m, s.meddle = .write i v :: m ∧ s.busy = true ∧
      s.tick = (s.environment.dropMeddle.writeBusy i v).advance s.nextDraw) ∨
    (s.busy = true ∧ ((∃ m, s.meddle = .quiet :: m) ∨ s.meddle = []) ∧
      s.tick = (s.environment.dropMeddle).advance s.nextDraw) := by
  unfold State.tick
  cases hs : s.seq with
  | none => exact .inl ⟨rfl, rfl⟩
  | some r =>
    have hb : s.busy = true := by simp [hs]
    cases hm : s.meddle with
    | nil =>
      refine .inr (.inr (.inr ⟨hb, .inr rfl, ?_⟩))
      have : s.environment.dropMeddle = s.environment := by
        unfold State.dropMeddle
        rw [State.environment_meddle, hm, List.tail_nil, ← hm, ← State.environment_meddle]
      rw [this]
    | cons a m =>
      cases a with
      | quiet => exact .inr (.inr (.inr ⟨hb, .inl ⟨m, rfl⟩, rfl⟩))
      | write i v => exact .inr (.inr (.inl ⟨i, v, m, rfl, hb, rfl⟩))
      | reset => exact .inr (.inl ⟨m, rfl, hb, rfl⟩)

/-! ## Runs -/

/-- What every step of the block keeps, a run to the end of the operation keeps. -/
theorem runToIdle_keeps {P : State → Prop} (h : ∀ s, P s → P s.tick) (n : Nat) {s : State} (hs : P s) :
    P (runToIdle n s) := by
  induction n generalizing s with
  | zero => exact hs
  | succ n ih =>
    rw [runToIdle]
    split
    · exact ih (h s hs)
    · exact hs

/-- What every step of the block keeps, a run to the end of the frame keeps. -/
theorem runFrame_keeps {P : State → Prop} (h : ∀ s, P s → P s.tick) (n k : Nat) {s : State} (hs : P s) :
    P (runFrame n k s) := by
  induction n generalizing s with
  | zero => exact hs
  | succ n ih =>
    rw [runFrame]
    split
    · exact ih (h s hs)
    · exact hs

/-- `s` is busy through `k` steps of the block, which lead to `t`. -/
inductive BusyRun : Nat → State → State → Prop where
  | refl (s : State) : BusyRun 0 s s
  | step {k : Nat} {s t : State} (hb : s.busy = true) (h : BusyRun k s.tick t) : BusyRun (k + 1) s t

/-- Busy runs compose. -/
theorem BusyRun.trans {j k : Nat} {s t u : State} (h : BusyRun j s t) (h' : BusyRun k t u) : BusyRun (j + k) s u := by
  induction h with
  | refl => simpa using h'
  | @step j s t hb _ ih =>
    have := BusyRun.step hb (ih h')
    rwa [show j + k + 1 = j + 1 + k by omega] at this

/-- A run to the end of the operation passes over a busy run. -/
theorem runToIdle_busyRun {k n : Nat} {s t : State} (h : BusyRun k s t) (hn : k ≤ n) :
    runToIdle n s = runToIdle (n - k) t := by
  induction h generalizing n with
  | refl => rfl
  | @step k s t hb _ ih =>
    obtain ⟨m, rfl⟩ : ∃ m, n = m + 1 := ⟨n - 1, by omega⟩
    rw [runToIdle, if_pos hb, ih (by omega), show m + 1 - (k + 1) = m - k by omega]

/-- A run to the end of an operation that is not running changes nothing. -/
theorem runToIdle_idle {n : Nat} {s : State} (h : s.busy = false) : runToIdle n s = s := by
  cases n with
  | zero => rfl
  | succ n => simp [runToIdle, h]

/-- An operation that completes after `k` steps has run to its end. -/
theorem runToIdle_eq {k n : Nat} {s t : State} (h : BusyRun k s t) (ht : t.busy = false) (hn : k ≤ n) :
    runToIdle n s = t := by
  rw [runToIdle_busyRun h hn, runToIdle_idle ht]

/-! ## Instructions and steps -/

/-- Everything a request can do: a busy block drops it, an idle one accepts it and runs it (R33, R35). -/
theorem State.request_cases (s : State) (q : Word) (todo : List Act) :
    (s.busy = true ∧ s.request q todo = s.rejectRequest) ∨
    (s.busy = false ∧ s.request q todo = runToIdle tickFuel (s.accept q todo)) := by
  unfold State.request
  cases h : s.busy
  · exact .inr ⟨rfl, rfl⟩
  · exact .inl ⟨rfl, rfl⟩

/-- Everything an illegal word can do: a busy block drops it, an idle one refuses it (R35, R102). -/
theorem State.illegalRequest_cases (s : State) (q : Word) :
    (s.busy = true ∧ s.illegalRequest q = s.rejectRequest) ∨ (s.busy = false ∧ s.illegalRequest q = s.refuse q) := by
  unfold State.illegalRequest
  cases h : s.busy
  · exact .inr ⟨rfl, rfl⟩
  · exact .inl ⟨rfl, rfl⟩

/-- What an instruction can do to a state. -/
inductive Effect (s : State) : State → Prop where
  /-- A request to a busy block. -/
  | rejected (h : s.busy = true) : Effect s s.rejectRequest
  /-- An illegal word to an idle block. -/
  | refused (h : s.busy = false) (q : Word) : Effect s (s.refuse q)
  /-- A request to an idle block. -/
  | ran (h : s.busy = false) (q : Word) (todo : List Act) : Effect s (runToIdle tickFuel (s.accept q todo))
  /-- A frame of the running operation. -/
  | framed (r : Run) (h : s.seq = some r) (todo : List Act) (k : Nat) :
    Effect s (runFrame tickFuel k ({ s with seq := some { r with todo := todo } }.tick))
  /-- A response at the parser of the running operation. -/
  | parsed (r : Run) (h : s.seq = some r) (buf : List Byte) :
    Effect s ({ s with seq := some { r with buf := buf } }.tick)
  /-- Bytes of the sensor. -/
  | arrived (bs : List Byte) : Effect s (s.arrive bs)

theorem State.request_effect (s : State) (q : Word) (todo : List Act) : Effect s (s.request q todo) := by
  rcases s.request_cases q todo with ⟨hb, h⟩ | ⟨hb, h⟩
  · exact h ▸ .rejected hb
  · exact h ▸ .ran hb q todo

theorem State.illegalRequest_effect (s : State) (q : Word) : Effect s (s.illegalRequest q) := by
  rcases s.illegalRequest_cases q with ⟨hb, h⟩ | ⟨hb, h⟩
  · exact h ▸ .rejected hb
  · exact h ▸ .refused hb q

theorem State.sendFrame_effect (s : State) (c : Command) : Effect s (s.sendFrame c) := by
  unfold State.sendFrame
  split
  · exact .framed _ ‹_› _ _
  · exact s.request_effect _ _

theorem State.takeResponse_effect (s : State) (e m l t : Byte) : Effect s (s.takeResponse e m l t) := by
  unfold State.takeResponse
  split
  · split
    · exact .parsed _ ‹_› _
    · exact .arrived _
  · exact .arrived _

/-- Everything an instruction can do: exec always answers a next state, and it is one of these effects. -/
theorem exec_effect (i : Instr) (s : State) : ∃ t, exec i s = .next t ∧ Effect s t := by
  cases i
  case reservedOp0 w => exact ⟨_, rfl, s.illegalRequest_effect w⟩
  case sendCommands hi n f =>
    refine ⟨_, rfl, ?_⟩
    split
    · exact s.request_effect _ _
    · exact s.illegalRequest_effect _
  case readResponse e m l t => exact ⟨_, rfl, s.takeResponse_effect e m l t⟩
  all_goals first
    | exact ⟨_, rfl, s.request_effect _ _⟩
    | exact ⟨_, rfl, s.sendFrame_effect _⟩

/-- What a step of the machine can do. -/
inductive StepEffect (s : State) : State → Prop where
  /-- An instruction of the running operation. -/
  | instr {t : State} (h : Effect s t) : StepEffect s t
  /-- The host's next request. -/
  | hostRequest {t : State} (host : List HostAccess) (h : Effect { s with host := host } t) : StepEffect s t
  /-- The host's write to another register of the idle block. -/
  | hostWrite (host : List HostAccess) (i : BitVec 10) (v : Word) : StepEffect s ({ s with host := host }.writeConfig i v)
  /-- The host lets time pass. -/
  | hostWait (host : List HostAccess) (ms : Nat) :
    StepEffect s { s.environment with host := host, now := s.environment.now + ms }
  /-- Block reset of the idle block. -/
  | hostReset (host : List HostAccess) (k : Nat) : StepEffect s ({ s.environment with host := host }.blockReset k)
  /-- A step of the block with no instruction in it. -/
  | ticked : StepEffect s s.tick

/-- Everything a step can do: it always answers a next state, and it is one of these effects. -/
theorem step_effect (s : State) : ∃ t, step s = .next t ∧ StepEffect s t := by
  have run : ∀ (i : Instr) (u : State), (∀ t, Effect u t → StepEffect s t) →
      ∃ t, exec i u = .next t ∧ StepEffect s t := fun i u h =>
    let ⟨t, ht, he⟩ := exec_effect i u
    ⟨t, ht, h t he⟩
  unfold step State.fetch
  cases hs : s.seq with
  | some r =>
    simp only [State.fetchRunning]
    split
    · rename_i heq; split at heq
      · cases heq; exact run _ _ (fun t h => .instr h)
      · split at heq
        · cases heq; exact run _ _ (fun t h => .instr h)
        · cases heq
      · cases heq
    · rename_i heq; split at heq
      · cases heq
      · split at heq
        · cases heq
        · cases heq; exact ⟨_, rfl, .ticked⟩
      · cases heq; exact ⟨_, rfl, .ticked⟩
  | none =>
    simp only [State.fetchIdle]
    split
    · rename_i heq; split at heq
      · split at heq
        · cases heq; exact run _ _ (fun t h => .hostRequest _ h)
        · cases heq
      all_goals cases heq
    · rename_i heq; split at heq
      · split at heq
        · cases heq
        · cases heq; exact ⟨_, rfl, .hostWrite _ _ _⟩
      · cases heq; exact ⟨_, rfl, .hostWait _ _⟩
      · cases heq; exact ⟨_, rfl, .hostReset _ _⟩
      · cases heq; exact ⟨_, rfl, .ticked⟩

end Sys2Proof.Machine
end

