-- ==== Sys2Proof/Laws/Calm.lean ====
section
/-! SUPPORT. Running an operation in a calm environment: one lemma per building block of the operations (a frame, a
register read, a sleep, a poll's attempt), each a busy run that says exactly what it leaves. All are about one form of
state, `State.mid`, so that they chain by `BusyRun.trans`. -/

namespace Sys2Proof.Machine

/-- `s` in the middle of an operation: `n` quiet draws before `rest`, the TX trace, the FIFO, the bytes handed over
since the last flush, the time, and the running operation as given. -/
def State.mid (s : State) (rest : List Draw) (n : Nat) (tx rx : List Byte) (pend now : Nat) (r : Run) : State :=
  { s with script := List.replicate n Draw.quiet ++ rest, tx := tx, rx := rx, txPending := pend, now := now,
           seq := some r }

/-- `s` leaves a running operation alone, and a FIFO of `m` bytes is within its depth. -/
structure State.Still (s : State) (m : Nat) : Prop where
  meddle : s.meddle = []
  held : s.held = []
  fifo : ∀ n, s.params.rxFifoDepth = some n → m ≤ n

/-- What holds of a longer FIFO holds of a shorter one. -/
theorem State.Still.mono {s : State} {m k : Nat} (h : s.Still m) (hk : k ≤ m) : s.Still k :=
  ⟨h.meddle, h.held, fun n hn => Nat.le_trans hk (h.fifo n hn)⟩

/-- A FIFO whose first bytes have been taken. -/
theorem State.Still.tail {s : State} {l rx : List Byte} (h : s.Still (l ++ rx).length) : s.Still rx.length :=
  h.mono (by simp)

/-- The acceptance of a request in a calm state is the middle of its operation (R33). -/
theorem State.accept_mid {s : State} {n : Nat} {rest : List Draw} (h : s.Calm n rest) (q : Word) (todo : List Act) :
    s.accept q todo =
      (s.accept q todo).mid rest n s.tx s.rx s.txPending s.now ⟨opField q, todo, [], 0#16, [], none, false⟩ := by
  simp only [State.mid, State.accept, ← h.script, startRun]

/-- An accepted operation in a calm state is left alone. -/
theorem State.Calm.still {s : State} {n : Nat} {rest : List Draw} (h : s.Calm n rest) (q : Word) (todo : List Act) :
    (s.accept q todo).Still s.rx.length :=
  ⟨h.meddle, h.held, h.fifo⟩

section
variable {s : State} {rest : List Draw} {n : Nat} {tx rx : List Byte} {pend now : Nat}
  {op : BitVec 4} {todo : List Act} {buf : List Byte} {v : Half} {ws : List Half} {id : Option Identity} {ftw : Bool}

/-! ## One step -/

/-- A calm step is the step of the running operation alone. -/
theorem State.mid_tick (h : s.Still rx.length) (r : Run) :
    (s.mid rest (n + 1) tx rx pend now r).tick = (s.mid rest n tx rx pend now r).advance Draw.quiet := by
  have hs : (s.mid rest (n + 1) tx rx pend now r).script = Draw.quiet :: (List.replicate n Draw.quiet ++ rest) := rfl
  have hd := State.nextDraw_cons hs
  have he : (s.mid rest (n + 1) tx rx pend now r).environment = s.mid rest n tx rx pend now r := by
    unfold State.environment
    rw [hd, State.dropDraw_cons hs]
    exact State.arrive_nil (s := s.mid rest n tx rx pend now r) h.held h.fifo
  have : (s.mid rest (n + 1) tx rx pend now r).tick =
      (s.mid rest (n + 1) tx rx pend now r).environment.advance (s.mid rest (n + 1) tx rx pend now r).nextDraw := by
    unfold State.tick
    simp only [State.mid, h.meddle]
  rw [this, hd, he]

/-- One calm step of the position at the head of the list. -/
theorem BusyRun.act {a : Act} {t : State} (h : s.Still rx.length)
    (he : (s.mid rest n tx rx pend now ⟨op, todo, buf, v, ws, id, ftw⟩).act ⟨op, todo, buf, v, ws, id, ftw⟩
      Draw.quiet a = t) :
    BusyRun 1 (s.mid rest (n + 1) tx rx pend now ⟨op, a :: todo, buf, v, ws, id, ftw⟩) t := by
  refine .step rfl ?_
  rw [State.mid_tick h, ← he]
  exact .refl _

/-- With nothing left to do the operation completes with Pass (R34). -/
theorem BusyRun.pass (h : s.Still rx.length) :
    BusyRun 1 (s.mid rest (n + 1) tx rx pend now ⟨op, [], buf, v, ws, id, ftw⟩)
      ((s.mid rest n tx rx pend now ⟨op, [], buf, v, ws, id, ftw⟩).pass ⟨op, [], buf, v, ws, id, ftw⟩) := by
  refine .step rfl ?_
  rw [State.mid_tick h]
  exact .refl _

/-! ## Frames -/

/-- TxByte (R136). -/
theorem BusyRun.txByte (h : s.Still rx.length) (b rep : Byte) :
    BusyRun 1 (s.mid rest (n + 1) tx rx pend now ⟨op, .tx b rep :: todo, buf, v, ws, id, ftw⟩)
      (s.mid rest n (tx ++ [b]) rx (pend + 1) now ⟨op, todo, buf, v, ws, id, ftw⟩) := .act h rfl

/-- The bytes of a frame and its flush, with the stream open (R136, R137, R141): 5 steps. -/
theorem BusyRun.frameSent (h : s.Still rx.length) (ho : s.stream.isOpen = true) (c : Command) (rep : Byte) :
    BusyRun 5 (s.mid rest (n + 5) tx rx pend now ⟨op, .frame c rep :: todo, buf, v, ws, id, ftw⟩)
      (s.mid rest n (tx ++ c.bytes) rx 0 now
        ⟨op, if c.len.toNat = 0 then todo else .rx c.len.toNat now rep :: todo, buf, v, ws, id, ftw⟩) := by
  have h1 : BusyRun 1 (s.mid rest (n + 5) tx rx pend now ⟨op, .frame c rep :: todo, buf, v, ws, id, ftw⟩)
      (s.mid rest (n + 4) tx rx pend now ⟨op, frameActs c rep ++ todo, buf, v, ws, id, ftw⟩) := by
    refine .act h ?_
    simp only [State.act, State.startFrame]
    exact (if_pos ho).trans rfl
  have h2 := (((h1.trans (.txByte h c.b1 rep)).trans (.txByte h c.b2 rep)).trans (.txByte h term rep))
  refine h2.trans (.act h ?_)
  simp only [State.act, State.flushTx, Draw.quiet, State.goOn, Command.bytes, List.append_assoc, List.cons_append,
    List.nil_append, term, Bool.false_eq_true, if_false]
  split <;> rfl

/-- A frame with no response (R141). -/
theorem BusyRun.frame (h : s.Still rx.length) (ho : s.stream.isOpen = true) {c : Command} (hl : c.len = 0x00)
    (rep : Byte) :
    BusyRun 5 (s.mid rest (n + 5) tx rx pend now ⟨op, .frame c rep :: todo, buf, v, ws, id, ftw⟩)
      (s.mid rest n (tx ++ c.bytes) rx 0 now ⟨op, todo, buf, v, ws, id, ftw⟩) := by
  have := BusyRun.frameSent (rest := rest) (n := n) (tx := tx) (pend := pend) (now := now) (op := op) (todo := todo)
    (buf := buf) (v := v) (ws := ws) (id := id) (ftw := ftw) h ho c rep
  rwa [hl] at this

/-- RxRead of bytes that are there (R138). -/
theorem BusyRun.rxRead {last : Nat} {rep : Byte} {resp : List Byte} (hne : resp ≠ [])
    (h : s.Still (resp ++ rx).length) :
    BusyRun resp.length
      (s.mid rest (n + resp.length) tx (resp ++ rx) pend now
        ⟨op, .rx resp.length last rep :: todo, buf, v, ws, id, ftw⟩)
      (s.mid rest n tx rx pend now ⟨op, todo, buf ++ resp, v, ws, id, ftw⟩) := by
  induction resp generalizing buf last with
  | nil => exact absurd rfl hne
  | cons b bs ih =>
    have h1 : BusyRun 1 (s.mid rest (n + bs.length + 1) tx (b :: bs ++ rx) pend now
        ⟨op, .rx (bs.length + 1) last rep :: todo, buf, v, ws, id, ftw⟩)
        (s.mid rest (n + bs.length) tx (bs ++ rx) pend now
          ⟨op, if bs.length = 0 then todo else .rx bs.length now rep :: todo, buf ++ [b], v, ws, id, ftw⟩) :=
      .act h rfl
    cases bs with
    | nil => exact h1
    | cons c cs =>
      have h2 := ih (buf := buf ++ [b]) (last := now) (List.cons_ne_nil c cs) (h.mono (by simp))
      have := h1.trans h2
      rw [show 1 + (c :: cs).length = (b :: c :: cs).length by simp; omega] at this
      rw [List.append_assoc] at this
      exact this

/-- RxRead of the bytes that are there, with more still to come (R138). -/
theorem BusyRun.rxSome {rep : Byte} (part : List Byte) (need : Nat) (h : s.Still (part ++ rx).length) :
    BusyRun part.length
      (s.mid rest (n + part.length) tx (part ++ rx) pend now
        ⟨op, .rx (part.length + (need + 1)) now rep :: todo, buf, v, ws, id, ftw⟩)
      (s.mid rest n tx rx pend now ⟨op, .rx (need + 1) now rep :: todo, buf ++ part, v, ws, id, ftw⟩) := by
  induction part generalizing buf with
  | nil => simpa using BusyRun.refl _
  | cons b bs ih =>
    have h1 : BusyRun 1 (s.mid rest (n + bs.length + 1) tx (b :: bs ++ rx) pend now
        ⟨op, .rx (bs.length + (need + 1) + 1) now rep :: todo, buf, v, ws, id, ftw⟩)
        (s.mid rest (n + bs.length) tx (bs ++ rx) pend now
          ⟨op, .rx (bs.length + (need + 1)) now rep :: todo, buf ++ [b], v, ws, id, ftw⟩) := .act h rfl
    have := h1.trans (ih (buf := buf ++ [b]) (h.mono (by simp)))
    rw [show 1 + bs.length = (b :: bs).length by simp; omega, List.append_assoc,
      show bs.length + (need + 1) + 1 = (b :: bs).length + (need + 1) by simp; omega] at this
    exact this

/-- A frame whose response is there (R141, R143). -/
theorem BusyRun.exchange (ho : s.stream.isOpen = true) {c : Command} {resp : List Byte}
    (h : s.Still (resp ++ rx).length) (hl : resp.length = c.len.toNat) (rep : Byte) :
    BusyRun (5 + resp.length)
      (s.mid rest (n + (5 + resp.length)) tx (resp ++ rx) pend now ⟨op, .frame c rep :: todo, buf, v, ws, id, ftw⟩)
      (s.mid rest n (tx ++ c.bytes) rx 0 now ⟨op, todo, buf ++ resp, v, ws, id, ftw⟩) := by
  have h1 := BusyRun.frameSent (rest := rest) (n := n + resp.length) (tx := tx) (pend := pend) (now := now) (op := op)
    (todo := todo) (buf := buf) (v := v) (ws := ws) (id := id) (ftw := ftw) h ho c rep
  rw [← hl, show n + resp.length + 5 = n + (5 + resp.length) by omega] at h1
  cases resp with
  | nil => simpa using h1
  | cons b bs => exact h1.trans (.rxRead (List.cons_ne_nil b bs) h)

/-! ## Register reads -/

/-- The value of an answer is the one its bytes parse to (R166). -/
theorem parseWord_answer (a : Answer) : parseWord a.bytes = some a.value := by
  obtain ⟨e, w, t⟩ := a
  simp only [parseWord, Answer.bytes, Option.some.injEq]
  ext i hi
  simp only [BitVec.getElem_append, BitVec.getElem_extractLsb']
  split
  · simp [BitVec.getLsbD_eq_getElem hi]
  · rename_i h8
    rw [show 8 + (i - 8) = i by omega]
    simp [BitVec.getLsbD_eq_getElem hi]

/-- ParseWord of an answer that has been read (R166). -/
theorem BusyRun.parse (h : s.Still rx.length) (a : Answer) (rep : Byte) :
    BusyRun 1 (s.mid rest (n + 1) tx rx pend now ⟨op, .parse rep :: todo, a.bytes, v, ws, id, ftw⟩)
      (s.mid rest n tx rx pend now ⟨op, todo, [], a.value, ws, id, ftw⟩) := by
  refine .act h ?_
  simp only [State.act, State.parseResponse, parseWord_answer]
  rfl

/-- ReadUnselected of a register whose answer is there (R169): 10 steps. -/
theorem BusyRun.readUnselected (ho : s.stream.isOpen = true) {a : Answer} (h : s.Still (a.bytes ++ rx).length)
    {p : Params} (addr : Byte) :
    BusyRun 10
      (s.mid rest (n + 10) tx (a.bytes ++ rx) pend now ⟨op, readUnselectedActs p addr ++ todo, [], v, ws, id, ftw⟩)
      (s.mid rest n (tx ++ (readCommand p addr).bytes) rx 0 now ⟨op, todo, [], a.value, ws, id, ftw⟩) := by
  have h1 := BusyRun.exchange (rest := rest) (n := n + 1) (tx := tx) (pend := pend) (now := now) (op := op)
    (todo := .parse addr :: todo) (buf := []) (v := v) (ws := ws) (id := id) (ftw := ftw) (c := readCommand p addr)
    ho h rfl addr
  exact h1.trans (.parse h.tail a addr)

/-- ReadRegisterWord of a register whose answer is there (R165, R166): 15 steps. -/
theorem BusyRun.readRegister (ho : s.stream.isOpen = true) {a : Answer} (h : s.Still (a.bytes ++ rx).length)
    {p : Params} (addr : Byte) (w : BitVec 1) :
    BusyRun 15
      (s.mid rest (n + 15) tx (a.bytes ++ rx) pend now ⟨op, readRegisterActs p addr w ++ todo, [], v, ws, id, ftw⟩)
      (s.mid rest n (tx ++ (selectCommand w).bytes ++ (readCommand p addr).bytes) rx 0 now
        ⟨op, todo, [], a.value, ws, id, ftw⟩) :=
  (BusyRun.frame (n := n + 10) h ho (c := selectCommand w) rfl addr).trans (.readUnselected ho h addr)

/-- A sleep (R14). -/
theorem BusyRun.sleep (h : s.Still rx.length) (ms : Nat) :
    BusyRun 1 (s.mid rest (n + 1) tx rx pend now ⟨op, .sleep ms :: todo, buf, v, ws, id, ftw⟩)
      (s.mid rest n tx rx pend (now + ms) ⟨op, todo, buf, v, ws, id, ftw⟩) := .act h rfl

/-- WriteWin (R162): 10 steps. -/
theorem BusyRun.writeWin (h : s.Still rx.length) (ho : s.stream.isOpen = true) (w : BitVec 1) (a x : Byte) :
    BusyRun 10
      (s.mid rest (n + 10) tx rx pend now ⟨op, writeWinActs w a x ++ todo, buf, v, ws, id, ftw⟩)
      (s.mid rest n (tx ++ (selectCommand w).bytes ++ [a, x, 0x0D]) rx 0 now ⟨op, todo, buf, v, ws, id, ftw⟩) :=
  (BusyRun.frame (n := n + 5) h ho (c := selectCommand w) rfl _).trans
    (.frame h ho (c := ⟨0x00, a, x⟩) rfl _)

/-- ResetSpell (R170): 15 steps. -/
theorem BusyRun.resetSpell (h : s.Still rx.length) (ho : s.stream.isOpen = true) :
    BusyRun 15
      (s.mid rest (n + 15) tx rx pend now ⟨op, resetSpellActs ++ todo, buf, v, ws, id, ftw⟩)
      (s.mid rest n (tx ++ [0xFF, 0xFF, 0x0D] ++ [0xFF, 0xFF, 0x0D] ++ [0xFF, 0xFF, 0x0D]) rx 0 now
        ⟨op, todo, buf, v, ws, id, ftw⟩) :=
  ((BusyRun.frame (n := n + 10) h ho (c := ⟨0x00, spellByte, spellByte⟩) rfl _).trans
    (.frame (n := n + 5) h ho (c := ⟨0x00, spellByte, spellByte⟩) rfl _)).trans
      (.frame h ho (c := ⟨0x00, spellByte, spellByte⟩) rfl _)

/-! ## Polls -/

/-- One attempt of a poll whose answer is there, from the bound check to the test (R201): 17 steps. -/
theorem BusyRun.attempt (ho : s.stream.isOpen = true) {a : Answer} (h : s.Still (a.bytes ++ rx).length) (p : Poll)
    {start : Nat} (hbound : now - start < p.bound) :
    BusyRun 17
      (s.mid rest (n + 17) tx (a.bytes ++ rx) pend now ⟨op, .pollCheck p start :: todo, [], v, ws, id, ftw⟩)
      (s.mid rest n (tx ++ (selectCommand p.window).bytes ++ (readCommand s.params p.addr).bytes) rx 0 now
        ⟨op, if a.value &&& p.mask = 0#16 then todo else .sleep p.interval :: .pollCheck p start :: todo,
          [], a.value, ws, id, ftw⟩) := by
  have h1 : BusyRun 1 (s.mid rest (n + 17) tx (a.bytes ++ rx) pend now
      ⟨op, .pollCheck p start :: todo, [], v, ws, id, ftw⟩)
      (s.mid rest (n + 16) tx (a.bytes ++ rx) pend now
        ⟨op, readRegisterActs s.params p.addr p.window ++ (.pollTest p start :: todo), [], v, ws, id, ftw⟩) := by
    refine .act h ?_
    simp only [State.act, State.checkPoll]
    refine (if_neg (show ¬ p.bound ≤ now - start by omega)).trans ?_
    simp only [attemptActs, List.append_assoc]
    rfl
  refine (h1.trans (.readRegister (n := n + 1) ho h p.addr p.window)).trans (.act h.tail ?_)
  simp only [State.act, State.testPoll]
  split <;> rfl

/-- A poll whose first answer is there and satisfies it (R201): 18 steps. -/
theorem BusyRun.pollReady (ho : s.stream.isOpen = true) {a : Answer} (h : s.Still (a.bytes ++ rx).length) (p : Poll)
    (hbound : 0 < p.bound) (hv : a.value &&& p.mask = 0#16) :
    BusyRun 18
      (s.mid rest (n + 18) tx (a.bytes ++ rx) pend now ⟨op, .pollStart p :: todo, [], v, ws, id, ftw⟩)
      (s.mid rest n (tx ++ (selectCommand p.window).bytes ++ (readCommand s.params p.addr).bytes) rx 0 now
        ⟨op, todo, [], a.value, ws, id, ftw⟩) := by
  have h1 : BusyRun 1 (s.mid rest (n + 18) tx (a.bytes ++ rx) pend now ⟨op, .pollStart p :: todo, [], v, ws, id, ftw⟩)
      (s.mid rest (n + 17) tx (a.bytes ++ rx) pend now ⟨op, .pollCheck p now :: todo, [], v, ws, id, ftw⟩) := .act h rfl
  have h2 := BusyRun.attempt (rest := rest) (n := n) (tx := tx) (pend := pend) (now := now) (op := op) (todo := todo)
    (v := v) (ws := ws) (id := id) (ftw := ftw) ho h p (start := now) (by omega)
  rw [if_pos hv] at h2
  exact h1.trans h2

end

/-! ## Whole requests -/

/-- A request to an idle block that is busy through `k` steps and then idle ends in the state those steps lead to. -/
theorem State.request_run {s t : State} {q : Word} {todo : List Act} {k : Nat} (hs : s.seq = none)
    (h : BusyRun k (s.accept q todo) t) (ht : t.busy = false) (hk : k ≤ tickFuel) : s.request q todo = t := by
  rw [State.request, if_neg (by simp [hs])]
  exact runToIdle_eq h ht hk

/-- A request whose steps but the last lead, in a calm state, to an operation with nothing left to do ends with its Pass
report (R34, R263). -/
theorem State.request_pass {s : State} {q : Word} {todo : List Act} {k : Nat} {rest : List Draw} {n : Nat}
    {tx rx : List Byte} {pend now : Nat} {op : BitVec 4} {buf : List Byte} {v : Half} {ws : List Half}
    {id : Option Identity} {ftw : Bool} (hs : s.seq = none) (hc : s.Calm n rest) (hq : opField q = op)
    (h : BusyRun k ((s.accept q todo).mid rest n s.tx s.rx s.txPending s.now ⟨op, todo, [], 0#16, [], none, false⟩)
      ((s.accept q todo).mid rest 1 tx rx pend now ⟨op, [], buf, v, ws, id, ftw⟩))
    (hr : rx.length ≤ s.rx.length) (hk : k < tickFuel) :
    s.request q todo = State.reports { s with script := rest, tx := tx, rx := rx, txPending := pend, now := now } q
      (passReport ⟨op, [], buf, v, ws, id, ftw⟩) (reportedFtWarn ⟨op, [], buf, v, ws, id, ftw⟩) := by
  have hp := h.trans (BusyRun.pass (s := s.accept q todo) (n := 0) ((hc.still q todo).mono hr))
  subst hq
  rw [← State.accept_mid hc] at hp
  exact State.request_run hs hp rfl hk

/-- A request whose last step, in a calm state, is a failure that nothing stops ends with its Fail report (R263,
R265). -/
theorem State.request_fail {s : State} {q : Word} {todo : List Act} {k : Nat} {rest : List Draw} {n : Nat} {t u : State}
    {r : Run} {f : Failure} (hs : s.seq = none) (hc : s.Calm n rest)
    (h : BusyRun k ((s.accept q todo).mid rest n s.tx s.rx s.txPending s.now ⟨opField q, todo, [], 0#16, [], none, false⟩)
      t) (ht : t = u.completeFail r f) (hk : k ≤ tickFuel) : s.request q todo = u.completeFail r f := by
  subst ht
  rw [← State.accept_mid hc] at h
  exact State.request_run hs h rfl hk

end Sys2Proof.Machine
end

