-- ==== Sys2Proof/Laws/Operations.lean ====
section
/-! SUPPORT. The sub-operations in a calm environment: the busy run of a poll that becomes ready after some attempts, of
flashBackup, of flashTest, of the mode exit, each said once for the operations that call them. -/

namespace Sys2Proof.Machine

/-! ## Masks -/

/-- A one-bit mask finds its bit clear. -/
theorem maskClear {v m : Half} {i : Nat} (hm : m = BitVec.twoPow 16 i) (h : v.getLsbD i = false) : v &&& m = 0#16 := by
  rw [hm, BitVec.and_twoPow, h]; rfl

/-- A one-bit mask finds its bit set. -/
theorem maskSet {v m : Half} {i : Nat} (hm : m = BitVec.twoPow 16 i) (hi : i < 16) (h : v.getLsbD i = true) :
    v &&& m ≠ 0#16 := by
  rw [hm, BitVec.and_twoPow, h, if_pos rfl]
  intro hz
  have := congrArg (fun x => x.getLsbD i) hz
  simp [hi] at this

section
variable {s : State} {rest : List Draw} {n : Nat} {tx rx : List Byte} {pend now : Nat}
  {op : BitVec 4} {todo : List Act} {buf : List Byte} {v : Half} {ws : List Half} {id : Option Identity} {ftw : Bool}

/-! ## Single positions -/

/-- A verify that finds its flag clear (R206, R210). -/
theorem BusyRun.verifyClear (h : s.Still rx.length) {mask : Half} (hv : v &&& mask = 0#16) :
    BusyRun 1 (s.mid rest (n + 1) tx rx pend now ⟨op, .verifyClear mask :: todo, buf, v, ws, id, ftw⟩)
      (s.mid rest n tx rx pend now ⟨op, todo, buf, v, ws, id, ftw⟩) :=
  .act h (by simp only [State.act]; exact if_pos hv)

/-- A confirmation that finds its bit set (R219). -/
theorem BusyRun.confirmSet (h : s.Still rx.length) {mask : Half} (hv : v &&& mask ≠ 0#16) :
    BusyRun 1 (s.mid rest (n + 1) tx rx pend now ⟨op, .confirmSet mask :: todo, buf, v, ws, id, ftw⟩)
      (s.mid rest n tx rx pend now ⟨op, todo, buf, v, ws, id, ftw⟩) :=
  .act h (by simp only [State.act]; exact if_neg hv)

/-- Entering a non-fatal part (R268). -/
theorem BusyRun.enter (h : s.Still rx.length) (g : Guard) :
    BusyRun 1 (s.mid rest (n + 1) tx rx pend now ⟨op, .enter g :: todo, buf, v, ws, id, ftw⟩)
      (s.mid rest n tx rx pend now ⟨op, guardActs s.params g ++ todo, buf, v, ws, id, ftw⟩) := .act h rfl

/-- Leaving a non-fatal part that did not fail (R268). -/
theorem BusyRun.leave (h : s.Still rx.length) (g : Guard) :
    BusyRun 1 (s.mid rest (n + 1) tx rx pend now ⟨op, .leave g :: todo, buf, v, ws, id, ftw⟩)
      (s.mid rest n tx rx pend now ⟨op, todo, buf, v, ws, id, ftw⟩) := .act h rfl

/-- The closing select of window 0 (R186, R219): 7 steps. -/
theorem BusyRun.courtesy (h : s.Still rx.length) (ho : s.stream.isOpen = true) :
    BusyRun 7 (s.mid rest (n + 7) tx rx pend now ⟨op, .enter .courtesy :: todo, buf, v, ws, id, ftw⟩)
      (s.mid rest n (tx ++ [0xFE, 0x00, 0x0D]) rx 0 now ⟨op, todo, buf, v, ws, id, ftw⟩) :=
  ((BusyRun.enter (n := n + 6) h .courtesy).trans
    (.frame (n := n + 1) h ho (c := selectCommand 0#1) (todo := .leave .courtesy :: todo) rfl _)).trans (.leave h _)

/-! ## Polls -/

/-- The bytes of `k` attempts of a poll. -/
def pollBytes (s : State) (p : Poll) (k : Nat) : List Byte :=
  (List.replicate k ((selectCommand p.window).bytes ++ (readCommand s.params p.addr).bytes)).flatten

/-- Attempts of a poll whose answers do not satisfy it (R201): 18 steps each, from bound check to bound check. -/
theorem BusyRun.attempts (ho : s.stream.isOpen = true) (p : Poll) {start : Nat} (answers : List Answer)
    (h : s.Still (answers.flatMap Answer.bytes ++ rx).length) (hs : start ≤ now)
    (hb : answers ≠ [] → now - start + p.interval * (answers.length - 1) < p.bound)
    (ha : ∀ a ∈ answers, a.value &&& p.mask ≠ 0#16) :
    ∃ v', BusyRun (18 * answers.length)
      (s.mid rest (n + 18 * answers.length) tx (answers.flatMap Answer.bytes ++ rx) pend now
        ⟨op, .pollCheck p start :: todo, [], v, ws, id, ftw⟩)
      (s.mid rest n (tx ++ pollBytes s p answers.length) rx (if answers = [] then pend else 0)
        (now + p.interval * answers.length) ⟨op, .pollCheck p start :: todo, [], v', ws, id, ftw⟩) := by
  induction answers generalizing tx pend now v with
  | nil => exact ⟨v, by simpa [pollBytes] using BusyRun.refl _⟩
  | cons a as ih =>
    have hb0 := hb (List.cons_ne_nil a as)
    have h1 := BusyRun.attempt (rest := rest) (n := n + 18 * as.length + 1) (tx := tx) (pend := pend) (now := now)
      (op := op) (todo := todo) (v := v) (ws := ws) (id := id) (ftw := ftw) (rx := as.flatMap Answer.bytes ++ rx) ho
      (a := a) (by simpa using h) p (start := start) (by omega)
    rw [if_neg (ha a (List.mem_cons_self ..))] at h1
    have h2 := BusyRun.sleep (rest := rest) (n := n + 18 * as.length)
      (tx := tx ++ (selectCommand p.window).bytes ++ (readCommand s.params p.addr).bytes) (pend := 0) (now := now)
      (op := op) (todo := .pollCheck p start :: todo) (buf := []) (v := a.value) (ws := ws) (id := id) (ftw := ftw)
      (rx := as.flatMap Answer.bytes ++ rx) (h.mono (by simp)) p.interval
    have hm : p.interval * (as.length + 1) = p.interval + p.interval * as.length := by ring
    obtain ⟨v', h3⟩ := ih
      (tx := tx ++ (selectCommand p.window).bytes ++ (readCommand s.params p.addr).bytes) (pend := 0)
      (now := now + p.interval) (v := a.value) (h.mono (by simp)) (by omega)
      (fun hne => by
        obtain ⟨b, bs, rfl⟩ := List.exists_cons_of_ne_nil hne
        have : p.interval * (bs.length + 1) = p.interval + p.interval * bs.length := by ring
        simp only [List.length_cons, Nat.add_sub_cancel] at hb0 ⊢
        omega)
      (fun b hb => ha b (List.mem_cons_of_mem _ hb))
    refine ⟨v', ?_⟩
    have := (h1.trans h2).trans h3
    have e1 : 17 + 1 + 18 * as.length = 18 * (a :: as).length := by simp; ring
    have e2 : n + 18 * as.length + 1 + 17 = n + 18 * (a :: as).length := by simp; ring
    have e3 : now + p.interval + p.interval * as.length = now + p.interval * (a :: as).length := by
      rw [List.length_cons, hm]; omega
    have e4 : tx ++ (selectCommand p.window).bytes ++ (readCommand s.params p.addr).bytes ++ pollBytes s p as.length =
        tx ++ pollBytes s p (a :: as).length := by
      simp [pollBytes, List.replicate_succ]
    rw [e1, e2, e3, e4] at this
    simpa using this

/-- A poll that becomes ready at the attempt after `answers` (R201). -/
theorem BusyRun.pollReadyAfter (ho : s.stream.isOpen = true) (p : Poll) (answers : List Answer) (a : Answer)
    (h : s.Still (answers.flatMap Answer.bytes ++ (a.bytes ++ rx)).length)
    (hb : p.interval * answers.length < p.bound) (ha : ∀ b ∈ answers, b.value &&& p.mask ≠ 0#16)
    (hv : a.value &&& p.mask = 0#16) :
    BusyRun (18 * answers.length + 18)
      (s.mid rest (n + (18 * answers.length + 18)) tx (answers.flatMap Answer.bytes ++ (a.bytes ++ rx)) pend now
        ⟨op, .pollStart p :: todo, [], v, ws, id, ftw⟩)
      (s.mid rest n (tx ++ pollBytes s p (answers.length + 1)) rx 0 (now + p.interval * answers.length)
        ⟨op, todo, [], a.value, ws, id, ftw⟩) := by
  have h1 : BusyRun 1 (s.mid rest (n + 17 + 18 * answers.length + 1) tx
      (answers.flatMap Answer.bytes ++ (a.bytes ++ rx)) pend now ⟨op, .pollStart p :: todo, [], v, ws, id, ftw⟩)
      (s.mid rest (n + 17 + 18 * answers.length) tx (answers.flatMap Answer.bytes ++ (a.bytes ++ rx)) pend now
        ⟨op, .pollCheck p now :: todo, [], v, ws, id, ftw⟩) := .act h rfl
  obtain ⟨v', h2⟩ := BusyRun.attempts (rest := rest) (n := n + 17) (tx := tx) (pend := pend) (now := now) (op := op)
    (todo := todo) (v := v) (ws := ws) (id := id) (ftw := ftw) (rx := a.bytes ++ rx) ho p (start := now) answers h
    (Nat.le_refl _)
    (fun hne => by
      obtain ⟨b, bs, rfl⟩ := List.exists_cons_of_ne_nil hne
      have : p.interval * (bs.length + 1) = p.interval + p.interval * bs.length := by ring
      simp only [List.length_cons, Nat.add_sub_cancel] at hb ⊢
      omega) ha
  have h3 := BusyRun.attempt (rest := rest) (n := n) (tx := tx ++ pollBytes s p answers.length)
    (pend := if answers = [] then pend else 0) (now := now + p.interval * answers.length) (op := op) (todo := todo)
    (v := v') (ws := ws) (id := id) (ftw := ftw) (rx := rx) ho (a := a) h.tail p (start := now) (by omega)
  rw [if_pos hv] at h3
  have := (h1.trans h2).trans h3
  have e1 : 1 + 18 * answers.length + 17 = 18 * answers.length + 18 := by omega
  have e2 : n + 17 + 18 * answers.length + 1 = n + (18 * answers.length + 18) := by omega
  have e3 : tx ++ pollBytes s p answers.length ++ (selectCommand p.window).bytes ++
      (readCommand s.params p.addr).bytes =
      tx ++ pollBytes s p (answers.length + 1) := by
    simp [pollBytes, List.replicate_succ']
  rw [e1, e2, e3] at this
  exact this

/-! ## Sub-operations -/

/-- flashBackup that passes, its poll ready at the first attempt (R206): 44 steps. -/
theorem BusyRun.flashBackup (ho : s.stream.isOpen = true) {g d : Answer}
    (h : s.Still (g.bytes ++ (d.bytes ++ rx)).length) (hg : g.value &&& backupRunning = 0#16)
    (hd : d.value &&& flashBuErr = 0#16) :
    BusyRun 44
      (s.mid rest (n + 44) tx (g.bytes ++ (d.bytes ++ rx)) pend now
        ⟨op, flashBackupActs s.params ++ todo, [], v, ws, id, ftw⟩)
      (s.mid rest n (tx ++ ([0xFE, 0x01, 0x0D, 0x8A, 0x08, 0x0D] ++ s.readBytes 0x01 0x0A ++ s.readBytes 0x00 0x04)) rx
        0 now ⟨op, todo, [], d.value, ws, id, ftw⟩) := by
  have h1 := BusyRun.writeWin (rest := rest) (n := n + 34) (tx := tx) (pend := pend) (now := now) (op := op) (buf := [])
    (todo := .pollStart backupPoll :: (readRegisterActs s.params diagStat1 0#1 ++ (.verifyClear flashBuErr :: todo)))
    (v := v) (ws := ws) (id := id) (ftw := ftw) h ho 1#1 globCmdWrite flashBackupValue
  have h2 := ((h1.trans (.pollReady (n := n + 16) ho h backupPoll (by decide) hg)).trans
    (.readRegister (n := n + 1) ho h.tail _ _)).trans (.verifyClear h.tail.tail hd)
  have e : tx ++ (selectCommand 1#1).bytes ++ [globCmdWrite, flashBackupValue, 0x0D] ++
      (selectCommand backupPoll.window).bytes ++ (readCommand s.params backupPoll.addr).bytes ++
      (selectCommand 0#1).bytes ++ (readCommand s.params diagStat1).bytes =
      tx ++ ([0xFE, 0x01, 0x0D, 0x8A, 0x08, 0x0D] ++ s.readBytes 0x01 0x0A ++ s.readBytes 0x00 0x04) := by
    simp [State.readBytes, selectCommand, readCommand, Command.bytes, backupPoll, winselAddr, globCmdWrite,
      flashBackupValue, globCmdRead, diagStat1]
  rw [e] at h2
  exact h2

/-- flashTest up to its verify, its poll ready at the first attempt (R210): 43 steps. -/
theorem BusyRun.flashTestVerify (ho : s.stream.isOpen = true) {g d : Answer}
    (h : s.Still (g.bytes ++ (d.bytes ++ rx)).length) (hg : g.value &&& testRunning = 0#16) :
    BusyRun 43
      (s.mid rest (n + 43) tx (g.bytes ++ (d.bytes ++ rx)) pend now
        ⟨op, flashTestActs s.params ++ todo, [], v, ws, id, ftw⟩)
      (s.mid rest n (tx ++ ([0xFE, 0x01, 0x0D, 0x83, 0x08, 0x0D] ++ s.readBytes 0x01 0x02 ++ s.readBytes 0x00 0x04)) rx
        0 now ⟨op, .verifyClear flashErr :: .enter .trailingWait :: todo, [], d.value, ws, id, ftw⟩) := by
  have h1 := BusyRun.writeWin (rest := rest) (n := n + 33) (tx := tx) (pend := pend) (now := now) (op := op) (buf := [])
    (todo := .pollStart testPoll ::
      (readRegisterActs s.params diagStat1 0#1 ++ (.verifyClear flashErr :: .enter .trailingWait :: todo)))
    (v := v) (ws := ws) (id := id) (ftw := ftw) h ho 1#1 modeMscWrite flashTestValue
  have h2 := (h1.trans (.pollReady (n := n + 15) ho h testPoll (by decide) hg)).trans
    (.readRegister (n := n) ho h.tail _ _)
  have e : tx ++ (selectCommand 1#1).bytes ++ [modeMscWrite, flashTestValue, 0x0D] ++
      (selectCommand testPoll.window).bytes ++ (readCommand s.params testPoll.addr).bytes ++
      (selectCommand 0#1).bytes ++ (readCommand s.params diagStat1).bytes =
      tx ++ ([0xFE, 0x01, 0x0D, 0x83, 0x08, 0x0D] ++ s.readBytes 0x01 0x02 ++ s.readBytes 0x00 0x04) := by
    simp [State.readBytes, selectCommand, readCommand, Command.bytes, testPoll, winselAddr, modeMscWrite,
      flashTestValue, modeMscRead, diagStat1]
  rw [e] at h2
  exact h2

/-- flashTest that passes, both polls ready at the first attempt (R210): 64 steps. -/
theorem BusyRun.flashTest (ho : s.stream.isOpen = true) {g d w : Answer}
    (h : s.Still (g.bytes ++ (d.bytes ++ (w.bytes ++ rx))).length) (hg : g.value &&& testRunning = 0#16)
    (hd : d.value &&& flashErr = 0#16) (hw : w.value &&& notReady = 0#16) :
    BusyRun 64
      (s.mid rest (n + 64) tx (g.bytes ++ (d.bytes ++ (w.bytes ++ rx))) pend now
        ⟨op, flashTestActs s.params ++ todo, [], v, ws, id, ftw⟩)
      (s.mid rest n (tx ++ ([0xFE, 0x01, 0x0D, 0x83, 0x08, 0x0D] ++ s.readBytes 0x01 0x02 ++ s.readBytes 0x00 0x04 ++
        s.readBytes 0x01 0x0A)) rx 0 now ⟨op, todo, [], w.value, ws, id, ftw⟩) := by
  have h1 := BusyRun.flashTestVerify (rest := rest) (n := n + 21) (tx := tx) (pend := pend) (now := now) (op := op)
    (todo := todo) (v := v) (ws := ws) (id := id) (ftw := ftw) ho (g := g) (d := d) (rx := w.bytes ++ rx) h hg
  have hw' : s.Still (w.bytes ++ rx).length := h.tail.tail
  have h2 := (((h1.trans (.verifyClear (n := n + 20) hw' hd)).trans (.enter (n := n + 19) hw' .trailingWait)).trans
    (.pollReady (n := n + 1) (todo := .leave .trailingWait :: todo) ho hw' (readyPoll tReadyFt) (by decide) hw)).trans
    (.leave hw'.tail _)
  have e : tx ++ ([0xFE, 0x01, 0x0D, 0x83, 0x08, 0x0D] ++ s.readBytes 0x01 0x02 ++ s.readBytes 0x00 0x04) ++
      (selectCommand (readyPoll tReadyFt).window).bytes ++ (readCommand s.params (readyPoll tReadyFt).addr).bytes =
      tx ++ ([0xFE, 0x01, 0x0D, 0x83, 0x08, 0x0D] ++ s.readBytes 0x01 0x02 ++ s.readBytes 0x00 0x04 ++
        s.readBytes 0x01 0x0A) := by
    simp [State.readBytes, selectCommand, readCommand, Command.bytes, readyPoll, winselAddr, globCmdRead]
  rw [e] at h2
  exact h2

/-- softwareReset that passes, its poll ready at the first attempt (R217): 28 steps. -/
theorem BusyRun.softwareReset (ho : s.stream.isOpen = true) {q : Answer} (h : s.Still (q.bytes ++ rx).length)
    (hq : q.value &&& notReady = 0#16) :
    BusyRun 28
      (s.mid rest (n + 28) tx (q.bytes ++ rx) pend now ⟨op, softwareResetActs ++ todo, [], v, ws, id, ftw⟩)
      (s.mid rest n (tx ++ ([0xFE, 0x01, 0x0D, 0x8A, 0x80, 0x0D] ++ s.readBytes 0x01 0x0A)) rx 0 now
        ⟨op, todo, [], q.value, ws, id, ftw⟩) := by
  have h1 := BusyRun.writeWin (rest := rest) (n := n + 18) (tx := tx) (pend := pend) (now := now) (op := op) (buf := [])
    (todo := .pollStart (readyPoll tReadySwrst) :: todo) (v := v) (ws := ws) (id := id) (ftw := ftw) h ho 1#1
    globCmdWrite swResetValue
  have h2 := h1.trans (.pollReady (n := n) ho h (readyPoll tReadySwrst) (by decide) hq)
  have e : tx ++ (selectCommand 1#1).bytes ++ [globCmdWrite, swResetValue, 0x0D] ++
      (selectCommand (readyPoll tReadySwrst).window).bytes ++
      (readCommand s.params (readyPoll tReadySwrst).addr).bytes =
      tx ++ ([0xFE, 0x01, 0x0D, 0x8A, 0x80, 0x0D] ++ s.readBytes 0x01 0x0A) := by
    simp [State.readBytes, selectCommand, readCommand, Command.bytes, readyPoll, winselAddr, globCmdWrite, swResetValue,
      globCmdRead]
  rw [e] at h2
  exact h2

/-- exitAutoMode up to its confirmation (R219): 21 steps. -/
theorem BusyRun.modeExit (ho : s.stream.isOpen = true) {m : Answer} (h : s.Still (m.bytes ++ rx).length) {p : Params}
    (hp : p = s.params) :
    BusyRun 21
      (s.mid rest (n + 21) tx (m.bytes ++ rx) pend now
        ⟨op, writeWinActs 0#1 modeMscWrite modeExitValue ++
          (.sleep tModeExit :: (readUnselectedActs p modeMscRead ++ todo)), [], v, ws, id, ftw⟩)
      (s.mid rest n (tx ++ [0xFE, 0x00, 0x0D, 0x83, 0x02, 0x0D, 0x02, s.params.readPad, 0x0D]) rx 0 (now + 50)
        ⟨op, todo, [], m.value, ws, id, ftw⟩) := by
  subst hp
  have h1 := ((BusyRun.writeWin (rest := rest) (n := n + 11) (tx := tx) (pend := pend) (now := now) (op := op)
    (buf := []) (todo := .sleep tModeExit :: (readUnselectedActs s.params modeMscRead ++ todo)) (v := v)
    (ws := ws) (id := id) (ftw := ftw) h ho 0#1 modeMscWrite modeExitValue).trans (.sleep (n := n + 10) h _)).trans
    (.readUnselected (n := n) ho h _)
  have e : tx ++ (selectCommand 0#1).bytes ++ [modeMscWrite, modeExitValue, 0x0D] ++
      (readCommand s.params modeMscRead).bytes =
      tx ++ [0xFE, 0x00, 0x0D, 0x83, 0x02, 0x0D, 0x02, s.params.readPad, 0x0D] := by
    simp [selectCommand, readCommand, Command.bytes, winselAddr, modeMscWrite, modeExitValue, modeMscRead]
  rw [e] at h1
  exact h1

end

end Sys2Proof.Machine
end

