-- ==== Sys2Proof/Laws/Beats.lean ====
section
/-! SUPPORT. Running an operation beat by beat, failures included: for a frame, a register read, a poll, a flash run and
the other parts of the operations, where its beats lead the running operation, or with which failure they end. -/

namespace Sys2Proof.Machine

/-! ## Beats -/

/-- The block in the middle of an operation that the host leaves alone, with nothing in its FIFO. -/
structure State.Alone (s : State) : Prop where
  isOpen : s.stream.isOpen = true
  meddle : s.meddle = []
  held : s.held = []
  rx : s.rx = []
  room : ∀ n, s.params.rxFifoDepth = some n → 0 < n

/-- `s` with the draws ahead and the running operation. -/
def State.going (s : State) (script : List Draw) (r : Run) : State := { s with script := script, seq := some r }

@[simp] theorem State.after_params (s : State) (b : Beat) : (s.after b).params = s.params := by cases b <;> rfl
@[simp] theorem State.after_stream (s : State) (b : Beat) : (s.after b).stream = s.stream := by cases b <;> rfl
@[simp] theorem State.after_meddle (s : State) (b : Beat) : (s.after b).meddle = s.meddle := by cases b <;> rfl
@[simp] theorem State.after_held (s : State) (b : Beat) : (s.after b).held = s.held := by cases b <;> rfl
@[simp] theorem State.after_rx (s : State) (b : Beat) : (s.after b).rx = s.rx := by cases b <;> rfl

@[simp] theorem State.along_nil (s : State) : s.along [] = s := rfl
@[simp] theorem State.along_cons (s : State) (b : Beat) (bs : List Beat) : s.along (b :: bs) = (s.after b).along bs := rfl
@[simp] theorem State.along_append (s : State) (bs cs : List Beat) : s.along (bs ++ cs) = (s.along bs).along cs :=
  List.foldl_append ..

/-- No beat changes a parameter or the stream, or wakes the host. -/
theorem State.Alone.after {s : State} (h : s.Alone) (b : Beat) : (s.after b).Alone :=
  ⟨by simpa using h.isOpen, by simpa using h.meddle, by simpa using h.held, by simpa using h.rx, by simpa using h.room⟩

theorem State.Alone.along {s : State} (h : s.Alone) (bs : List Beat) : (s.along bs).Alone := by
  induction bs generalizing s with
  | nil => exact h
  | cons b bs ih => exact ih (h.after b)

@[simp] theorem State.along_params (s : State) (bs : List Beat) : (s.along bs).params = s.params := by
  induction bs generalizing s with
  | nil => rfl
  | cons b bs ih => rw [State.along_cons, ih, State.after_params]

@[simp] theorem State.along_stream (s : State) (bs : List Beat) : (s.along bs).stream = s.stream := by
  induction bs generalizing s with
  | nil => rfl
  | cons b bs ih => rw [State.along_cons, ih, State.after_stream]

/-- The time that passes at a beat. -/
def Beat.ms : Beat → Nat
  | .silence ms => ms
  | .sleep ms => ms
  | .quiet => 0
  | .byte _ => 0
  | .flush => 0
  | .fails => 0
  | .gets _ => 0

/-- The clock after a run of beats. -/
theorem State.along_now (s : State) (bs : List Beat) : (s.along bs).now = s.now + (bs.map Beat.ms).sum := by
  induction bs generalizing s with
  | nil => rfl
  | cons b bs ih =>
    rw [State.along_cons, ih, List.map_cons, List.sum_cons, ← Nat.add_assoc]
    cases b <;> rfl

/-- The draws ahead and the operation do not matter to what beats leave. -/
theorem State.along_going (s : State) (script : List Draw) (r : Run) (bs : List Beat) :
    (s.going script r).along bs = (s.along bs).going script r := by
  induction bs generalizing s with
  | nil => rfl
  | cons b bs ih =>
    rw [State.along_cons, State.along_cons, ← ih]
    cases b <;> rfl

/-- The draws of the beats lead the operation `r` to `r'`. -/
def Leads (s : State) (beats : List Beat) (r r' : Run) : Prop :=
  ∀ rest, BusyRun beats.length (s.going (beats.map Beat.draw ++ rest) r) ((s.along beats).going rest r')

/-- The draws of the beats lead the operation `r` to the failure `f` of `r'`. -/
def Falls (s : State) (beats : List Beat) (r r' : Run) (f : Failure) : Prop :=
  ∀ rest, BusyRun beats.length (s.going (beats.map Beat.draw ++ rest) r)
    ({ s.along beats with script := rest }.failWith r' f)

theorem Leads.refl (s : State) (r : Run) : Leads s [] r r := fun _ => .refl _

/-- Runs of beats compose. -/
theorem Leads.trans {s : State} {bs cs : List Beat} {r r' r'' : Run} (h : Leads s bs r r')
    (h' : Leads (s.along bs) cs r' r'') : Leads s (bs ++ cs) r r'' := fun rest => by
  rw [List.length_append, List.map_append, List.append_assoc, State.along_append]
  exact (h _).trans (h' rest)

/-- A failure after a run of beats. -/
theorem Leads.falls {s : State} {bs cs : List Beat} {r r' r'' : Run} {f : Failure} (h : Leads s bs r r')
    (h' : Falls (s.along bs) cs r' r'' f) : Falls s (bs ++ cs) r r'' f := fun rest => by
  rw [List.length_append, List.map_append, List.append_assoc, State.along_append]
  exact (h _).trans (h' rest)

/-! ## A failure depends only on what stops it -/

/-- Of the positions ahead a failure looks at what stops it only, and the bytes read so far are lost (R138, R265). -/
theorem State.failWith_congr (s : State) {r r' : Run} (f : Failure) (hu : unwind r.todo = unwind r'.todo)
    (h : { r with todo := [], buf := [] } = { r' with todo := [], buf := [] }) : s.failWith r f = s.failWith r' f := by
  obtain ⟨op, todo, buf, v, ws, id, ftw⟩ := r
  obtain ⟨op', todo', buf', v', ws', id', ftw'⟩ := r'
  simp only [Run.mk.injEq, true_and] at h
  obtain ⟨rfl, rfl, rfl, rfl, rfl⟩ := h
  simp only at hu
  unfold State.failWith
  simp only [hu]
  split <;> rfl

/-- Positions that stop no failure may stand before those that do. -/
theorem Falls.pass {s : State} {beats : List Beat} {r r' : Run} (r'' : Run) {f : Failure} (h : Falls s beats r r' f)
    (hu : unwind r'.todo = unwind r''.todo)
    (he : { r' with todo := [], buf := [] } = { r'' with todo := [], buf := [] }) : Falls s beats r r'' f := fun rest => by
  have := h rest
  rwa [State.failWith_congr _ f hu he] at this

/-- A failure does not look at the running operation that the state holds. -/
theorem State.going_failWith (s : State) (ds : List Draw) (r r' : Run) (f : Failure) :
    (s.going ds r).failWith r' f = { s with script := ds }.failWith r' f := by
  unfold State.failWith
  split <;> rfl

/-- A failure that something stops goes on there (R202, R268). -/
theorem Falls.stopped {s : State} {beats : List Beat} {r r' : Run} {f : Failure} {todo : List Act} {w : Bool}
    (h : Falls s beats r r' f) (hu : unwind r'.todo = some (todo, w)) :
    Leads s beats r { r' with todo := todo, buf := [], ftw := r'.ftw || w } := fun rest => by
  have := h rest
  unfold State.failWith at this
  rw [hu] at this
  exact this

section
variable {s : State} {op : BitVec 4} {todo : List Act} {buf : List Byte} {v : Half} {ws : List Half}
  {id : Option Identity} {ftw : Bool}

/-! ## One beat -/

/-- The block in a step whose environment has acted by the draw `d`. -/
def State.met (s : State) (d : Draw) (ds : List Draw) (r : Run) : State :=
  { s.going ds r with now := s.now + d.elapsed, rx := d.arrivals }

/-- The environment of a step, with at most one byte arriving. -/
theorem State.going_tick (h : s.Alone) {d : Draw} (hd : d.arrivals.length ≤ 1) (ds : List Draw) (r : Run) :
    (s.going (d :: ds) r).tick = (s.met d ds r).advance d := by
  have hs : (s.going (d :: ds) r).script = d :: ds := rfl
  have he : (s.going (d :: ds) r).environment = s.met d ds r := by
    unfold State.environment
    rw [State.nextDraw_cons hs, State.dropDraw_cons hs]
    have : ∀ n, s.params.rxFifoDepth = some n → d.arrivals.length ≤ n := fun n hn => by have := h.room n hn; omega
    unfold State.arrive
    refine (if_pos h.isOpen).trans ?_
    simp only [State.going, State.met]
    split
    · simp [h.rx]
    · rename_i n hn
      have hl := this n hn
      split <;> simp [h.rx, h.held, hl]
  have : (s.going (d :: ds) r).tick = (s.going (d :: ds) r).environment.advance (s.going (d :: ds) r).nextDraw := by
    unfold State.tick
    simp only [State.going, h.meddle]
  rw [this, he, State.nextDraw_cons hs]

/-- An environment that does nothing but let time pass. -/
theorem State.met_silent (h : s.Alone) {d : Draw} (hd : d.arrivals = []) (ds : List Draw) (r : Run) :
    s.met d ds r = { s.going ds r with now := s.now + d.elapsed } := by
  have := h.rx
  unfold State.met
  rw [hd]
  cases s
  simp_all [State.going]

/-- One beat of the position at the head of the list. -/
theorem State.going_act (h : s.Alone) {d : Draw} (hd : d.arrivals.length ≤ 1) (ds : List Draw) (a : Act) :
    (s.going (d :: ds) ⟨op, a :: todo, buf, v, ws, id, ftw⟩).tick =
      (s.met d ds ⟨op, a :: todo, buf, v, ws, id, ftw⟩).act ⟨op, todo, buf, v, ws, id, ftw⟩ d a :=
  State.going_tick h hd ds _

/-- One beat at which the operation goes on. -/
theorem Leads.beat (h : s.Alone) (b : Beat) {a : Act} {r' : Run} (hb : b.draw.arrivals.length ≤ 1)
    (he : ∀ ds, (s.met b.draw ds ⟨op, a :: todo, buf, v, ws, id, ftw⟩).act ⟨op, todo, buf, v, ws, id, ftw⟩ b.draw a =
      (s.after b).going ds r') : Leads s [b] ⟨op, a :: todo, buf, v, ws, id, ftw⟩ r' := fun rest => by
  refine .step rfl ?_
  rw [List.map_cons, List.cons_append, State.going_act h hb, he]
  exact .refl _

/-- One beat with a quiet draw at which the operation goes on. -/
theorem Leads.act (h : s.Alone) (b : Beat) {a : Act} {r' : Run} (hb : b.draw = Draw.quiet)
    (he : ∀ ds, (s.going ds ⟨op, a :: todo, buf, v, ws, id, ftw⟩).act ⟨op, todo, buf, v, ws, id, ftw⟩ Draw.quiet a =
      (s.after b).going ds r') : Leads s [b] ⟨op, a :: todo, buf, v, ws, id, ftw⟩ r' :=
  .beat h b (by rw [hb]; decide) (fun ds => by rw [hb, State.met_silent h rfl]; exact he ds)

/-- One beat at which the operation fails. -/
theorem Falls.beat (h : s.Alone) (b : Beat) {a : Act} {f : Failure} (hb : b.draw.arrivals = [])
    (he : ∀ ds, ({ s.going ds ⟨op, a :: todo, buf, v, ws, id, ftw⟩ with now := s.now + b.draw.elapsed } : State).act
      ⟨op, todo, buf, v, ws, id, ftw⟩ b.draw a =
      ((s.after b).going ds ⟨op, a :: todo, buf, v, ws, id, ftw⟩).failWith ⟨op, todo, buf, v, ws, id, ftw⟩ f) :
    Falls s [b] ⟨op, a :: todo, buf, v, ws, id, ftw⟩ ⟨op, todo, buf, v, ws, id, ftw⟩ f := fun rest => by
  refine .step rfl ?_
  rw [List.map_cons, List.cons_append, State.going_act h (by rw [hb]; decide), State.met_silent h hb, he]
  rw [State.going_failWith]
  exact .refl _

/-! ## Frames -/

/-- A quiet step of the position at the head. -/
theorem Leads.quiet (h : s.Alone) {a : Act} {r' : Run}
    (he : ∀ ds, (s.going ds ⟨op, a :: todo, buf, v, ws, id, ftw⟩).act ⟨op, todo, buf, v, ws, id, ftw⟩ Draw.quiet a =
      s.going ds r') : Leads s [.quiet] ⟨op, a :: todo, buf, v, ws, id, ftw⟩ r' := .act h .quiet rfl he

/-- TxByte of a list of bytes (R136). -/
theorem Leads.bytes (h : s.Alone) (bs : List Byte) (rep : Byte) :
    Leads s (bs.map .byte) ⟨op, bs.map (.tx · rep) ++ todo, buf, v, ws, id, ftw⟩ ⟨op, todo, buf, v, ws, id, ftw⟩ := by
  induction bs generalizing s with
  | nil => exact .refl _ _
  | cons b bs ih => exact (Leads.act h (.byte b) rfl (fun _ => rfl)).trans (ih (h.along [.byte b]))

/-- The check that the stream is open (R141). -/
theorem Leads.startFrame (h : s.Alone) (c : Command) (rep : Byte) :
    Leads s [.quiet] ⟨op, .frame c rep :: todo, buf, v, ws, id, ftw⟩
      ⟨op, frameActs c rep ++ todo, buf, v, ws, id, ftw⟩ :=
  .quiet h (fun _ => by simp only [State.act, State.startFrame]; exact (if_pos h.isOpen).trans rfl)

/-- The first bytes of a frame that is sent (R136, R141). -/
theorem Leads.frameBytes (h : s.Alone) (c : Command) (rep : Byte) {bs : List Byte} {t : List Act}
    (ht : frameActs c rep ++ todo = bs.map (.tx · rep) ++ t) :
    Leads s ([.quiet] ++ bs.map .byte) ⟨op, .frame c rep :: todo, buf, v, ws, id, ftw⟩ ⟨op, t, buf, v, ws, id, ftw⟩ := by
  have h1 := Leads.startFrame (op := op) (todo := todo) (buf := buf) (v := v) (ws := ws) (id := id) (ftw := ftw) h c rep
  rw [ht] at h1
  exact h1.trans (.bytes (h.along _) bs rep)

/-- The flush (R137). -/
theorem Leads.flush (h : s.Alone) (len : Nat) (rep : Byte) :
    Leads s [.flush] ⟨op, .flush len rep :: todo, buf, v, ws, id, ftw⟩
      ⟨op, if len = 0 then todo else .rx len s.now rep :: todo, buf, v, ws, id, ftw⟩ :=
  .act h .flush rfl (fun _ => by
    simp only [State.act, State.flushTx, Draw.quiet, State.goOn, Bool.false_eq_true, if_false]
    split <;> rfl)

/-- A frame that is sent (R136, R137, R141). -/
theorem Leads.frameSent (h : s.Alone) (c : Command) (rep : Byte) :
    Leads s (frameBeats c.b1 c.b2) ⟨op, .frame c rep :: todo, buf, v, ws, id, ftw⟩
      ⟨op, if c.len.toNat = 0 then todo else .rx c.len.toNat s.now rep :: todo, buf, v, ws, id, ftw⟩ := by
  have h1 := Leads.frameBytes (op := op) (todo := todo) (buf := buf) (v := v) (ws := ws) (id := id) (ftw := ftw) h c rep
    (bs := [c.b1, c.b2, 0x0D]) (t := .flush c.len.toNat rep :: todo) rfl
  have h2 := Leads.flush (op := op) (todo := todo) (buf := buf) (v := v) (ws := ws) (id := id) (ftw := ftw)
    (h.along ([.quiet] ++ ([c.b1, c.b2, 0x0D] : List Byte).map .byte)) c.len.toNat rep
  exact h1.trans h2

/-- A frame with no response (R141). -/
theorem Leads.frame (h : s.Alone) {c : Command} (hl : c.len = 0x00) (rep : Byte) :
    Leads s (frameBeats c.b1 c.b2) ⟨op, .frame c rep :: todo, buf, v, ws, id, ftw⟩ ⟨op, todo, buf, v, ws, id, ftw⟩ := by
  have := Leads.frameSent (op := op) (todo := todo) (buf := buf) (v := v) (ws := ws) (id := id) (ftw := ftw) h c rep
  rwa [hl] at this

/-- A frame that the platform fails (R136, R141). -/
theorem Falls.frame (h : s.Alone) (c : Command) (rep : Byte) {k : Nat} (hk : k ≤ 3) :
    Falls s (frameFailsBeats c.b1 c.b2 k) ⟨op, .frame c rep :: todo, buf, v, ws, id, ftw⟩
      ⟨op, todo, buf, v, ws, id, ftw⟩ (.transport .io (some rep)) := by
  have fall : ∀ (bs : List Byte) (a : Act) (t : List Act), frameActs c rep ++ todo = bs.map (.tx · rep) ++ a :: t →
      unwind t = unwind todo → (∀ u : State, ∀ r, u.act r Draw.ioFailure a = u.failWith r (.transport .io (some rep))) →
      Falls s ([.quiet] ++ bs.map .byte ++ [.fails]) ⟨op, .frame c rep :: todo, buf, v, ws, id, ftw⟩
        ⟨op, todo, buf, v, ws, id, ftw⟩ (.transport .io (some rep)) := fun bs a t ht hu ha =>
    ((Leads.frameBytes h c rep ht).falls (.beat (h.along _) .fails rfl (fun _ => ha _ _))).pass _ hu rfl
  obtain rfl | rfl | rfl | rfl : k = 0 ∨ k = 1 ∨ k = 2 ∨ k = 3 := by omega
  · exact fall [] _ _ rfl rfl (fun _ _ => rfl)
  · exact fall [c.b1] _ _ rfl rfl (fun _ _ => rfl)
  · exact fall [c.b1, c.b2] _ _ rfl rfl (fun _ _ => rfl)
  · exact fall [c.b1, c.b2, 0x0D] _ _ rfl rfl (fun _ _ => rfl)

/-! ## Register reads -/

/-- RxRead of one byte that arrives (R138). -/
theorem Leads.takes (h : s.Alone) (b : Byte) (n last : Nat) (rep : Byte) :
    Leads s [.gets b] ⟨op, .rx (n + 1) last rep :: todo, buf, v, ws, id, ftw⟩
      ⟨op, if n = 0 then todo else .rx n s.now rep :: todo, buf ++ [b], v, ws, id, ftw⟩ :=
  .beat h (.gets b) (Nat.le_refl 1) (fun ds => by
    have := h.rx
    cases s
    simp only [State.act, State.rxByte, State.met, State.going, Beat.draw, Draw.answer, Draw.quiet, State.goOn,
      State.after, Nat.add_zero]
    simp_all)

/-- RxRead of bytes that arrive, with more still to come (R138). -/
theorem Leads.takesSome (h : s.Alone) (part : List Byte) (need : Nat) (rep : Byte) :
    Leads s (part.map .gets) ⟨op, .rx (part.length + (need + 1)) s.now rep :: todo, buf, v, ws, id, ftw⟩
      ⟨op, .rx (need + 1) s.now rep :: todo, buf ++ part, v, ws, id, ftw⟩ := by
  induction part generalizing s buf with
  | nil => simpa using Leads.refl _ _
  | cons b bs ih =>
    have h1 := Leads.takes (op := op) (todo := todo) (buf := buf) (v := v) (ws := ws) (id := id) (ftw := ftw) h b
      (bs.length + (need + 1)) s.now rep
    have h2 := h1.trans (ih (h.along [.gets b]) (buf := buf ++ [b]))
    rw [List.append_assoc] at h2
    rw [List.length_cons, Nat.add_right_comm]
    exact h2

/-- RxRead of an answer that arrives (R138). -/
theorem Leads.takesAll (h : s.Alone) {bs : List Byte} {n : Nat} (hn : n = bs.length) (hne : n ≠ 0) (rep : Byte) :
    Leads s (bs.map .gets) ⟨op, .rx n s.now rep :: todo, buf, v, ws, id, ftw⟩ ⟨op, todo, buf ++ bs, v, ws, id, ftw⟩ := by
  subst hn
  obtain ⟨front, b, rfl⟩ := List.eq_nil_or_concat bs |>.resolve_left (by rintro rfl; exact hne rfl)
  have h1 := (Leads.takesSome (op := op) (todo := todo) (buf := buf) (v := v) (ws := ws) (id := id) (ftw := ftw) h front 0
    rep).trans (.takes (h.along _) b 0 s.now rep)
  simpa using h1

/-- RxRead that gets no byte for the timeout (R138, R270). -/
theorem Falls.silence (h : s.Alone) {ms : Nat} (hms : s.stream.timeout.toNat ≤ ms) (need : Nat) (rep : Byte) :
    Falls s [.silence ms] ⟨op, .rx (need + 1) s.now rep :: todo, buf, v, ws, id, ftw⟩ ⟨op, todo, buf, v, ws, id, ftw⟩
      (.transport .timeout (some rep)) :=
  .beat h (.silence ms) rfl (fun ds => by
    simp only [State.act, State.rxByte, State.going, Beat.draw, Draw.after, Draw.quiet, State.after, h.rx]
    exact if_pos (by omega))

/-- The read frame (R62, R98): its answer is to be read from now on. -/
theorem Leads.readSent (h : s.Alone) (p : Params) (addr : Byte) :
    Leads s (frameBeats addr p.readPad) ⟨op, .frame (readCommand p addr) addr :: todo, buf, v, ws, id, ftw⟩
      ⟨op, .rx 4 (s.along (frameBeats addr p.readPad)).now addr :: todo, buf, v, ws, id, ftw⟩ := by
  have hn : (s.along (frameBeats addr p.readPad)).now = s.now := s.along_now _
  rw [hn]
  have h1 := Leads.frameSent (op := op) (todo := todo) (buf := buf) (v := v) (ws := ws) (id := id) (ftw := ftw) h
    (readCommand p addr) addr
  rwa [if_neg (show ¬ (readCommand p addr).len.toNat = 0 from (by decide : ¬ (4#8).toNat = 0))] at h1

/-- ParseWord (R166). -/
theorem Leads.parse (h : s.Alone) (a : Answer) (rep : Byte) :
    Leads s [.quiet] ⟨op, .parse rep :: todo, [] ++ a.bytes, v, ws, id, ftw⟩ ⟨op, todo, [], a.value, ws, id, ftw⟩ :=
  .quiet h (fun ds => by
    simp only [State.act, State.parseResponse, List.nil_append, parseWord_answer]
    rfl)

/-- ReadUnselected that is answered (R169). -/
theorem Leads.readUnselected (h : s.Alone) (p : Params) (addr : Byte) (a : Answer) :
    Leads s (frameBeats addr p.readPad ++ a.bytes.map .gets ++ [.quiet])
      ⟨op, readUnselectedActs p addr ++ todo, [], v, ws, id, ftw⟩ ⟨op, todo, [], a.value, ws, id, ftw⟩ :=
  ((Leads.readSent h p addr).trans
    (.takesAll (h.along _) (bs := a.bytes) (n := 4) rfl (by decide) addr)).trans (.parse (h.along _) a addr)

/-- ReadUnselected whose answer stays short (R138, R169). -/
theorem Falls.readShort (h : s.Alone) (p : Params) (addr : Byte) {part : List Byte} {ms : Nat} (hp : part.length < 4)
    (hms : s.stream.timeout.toNat ≤ ms) :
    Falls s (frameBeats addr p.readPad ++ part.map .gets ++ [.silence ms])
      ⟨op, readUnselectedActs p addr ++ todo, [], v, ws, id, ftw⟩ ⟨op, todo, [], v, ws, id, ftw⟩
      (.transport .timeout (some addr)) := by
  have h2 := Leads.takesSome (op := op) (todo := .parse addr :: todo) (buf := []) (v := v) (ws := ws) (id := id)
    (ftw := ftw) (h.along (frameBeats addr p.readPad)) part (3 - part.length) addr
  rw [show part.length + (3 - part.length + 1) = 4 by omega] at h2
  have h3 := Falls.silence (op := op) (todo := .parse addr :: todo) (buf := [] ++ part) (v := v) (ws := ws) (id := id)
    (ftw := ftw) (h.along (frameBeats addr p.readPad ++ part.map .gets)) (ms := ms) (by simpa using hms)
    (3 - part.length) addr
  have e : (s.along (frameBeats addr p.readPad ++ part.map .gets)).now = (s.along (frameBeats addr p.readPad)).now := by
    rw [State.along_append, State.along_now _ (part.map .gets)]
    have : ((part.map Beat.gets).map Beat.ms).sum = 0 := by simp [Function.comp_def, Beat.ms]
    omega
  rw [e] at h3
  exact (((Leads.readSent h p addr).trans h2).falls h3).pass _ rfl rfl

/-- The window select (R161). -/
theorem Leads.select (h : s.Alone) (w : BitVec 1) (rep : Byte) :
    Leads s (frameBeats 0xFE (w.zeroExtend 8)) ⟨op, .frame (selectCommand w) rep :: todo, buf, v, ws, id, ftw⟩
      ⟨op, todo, buf, v, ws, id, ftw⟩ := .frame h (c := selectCommand w) rfl rep

/-- ReadRegisterWord that is answered (R165, R166). -/
theorem Leads.answered (h : s.Alone) (p : Params) (addr : Byte) (w : BitVec 1) (a : Answer) :
    Leads s ((Reading.answered a).beats p.readPad (w.zeroExtend 8) addr)
      ⟨op, readRegisterActs p addr w ++ todo, [], v, ws, id, ftw⟩ ⟨op, todo, [], a.value, ws, id, ftw⟩ := by
  have := (Leads.select (op := op) (todo := readUnselectedActs p addr ++ todo) (buf := []) (v := v) (ws := ws) (id := id)
    (ftw := ftw) h w addr).trans (.readUnselected (h.along _) p addr a)
  rw [List.append_assoc, ← List.append_assoc (frameBeats 0xFE _), ← List.append_assoc] at this
  exact this

/-- ReadRegisterWord that fails (R165, R168). -/
theorem Falls.reading (h : s.Alone) (p : Params) (addr : Byte) (w : BitVec 1) {r : Reading} {f : Failure}
    (hp : r.possible s.stream.timeout.toNat) (hf : r.failure addr = some f) :
    Falls s (r.beats p.readPad (w.zeroExtend 8) addr)
      ⟨op, readRegisterActs p addr w ++ todo, [], v, ws, id, ftw⟩ ⟨op, todo, [], v, ws, id, ftw⟩ f := by
  have h1 := Leads.select (op := op) (todo := readUnselectedActs p addr ++ todo) (buf := []) (v := v) (ws := ws)
    (id := id) (ftw := ftw) h w addr
  cases r with
  | answered a => cases hf
  | short part ms =>
    cases hf
    have := h1.falls (.readShort (h.along _) p addr hp.1 (by simpa using hp.2))
    rw [List.append_assoc, ← List.append_assoc (frameBeats 0xFE _), ← List.append_assoc] at this
    exact this
  | selectFails k =>
    cases hf
    exact (Falls.frame h (selectCommand w) addr hp).pass _ rfl rfl
  | readFails k =>
    cases hf
    exact (h1.falls (.frame (h.along _) (readCommand p addr) addr hp)).pass _ rfl rfl

/-! ## Polls -/

/-- The time of two runs of attempts. -/
theorem attemptsMs_append (i : Nat) (xs ys : List Reading) :
    attemptsMs i (xs ++ ys) = attemptsMs i xs + attemptsMs i ys := by simp [attemptsMs]

/-- The time of a run of beats. -/
def beatsMs (bs : List Beat) : Nat := (bs.map Beat.ms).sum

@[simp] theorem beatsMs_nil : beatsMs [] = 0 := rfl
@[simp] theorem beatsMs_cons (b : Beat) (bs : List Beat) : beatsMs (b :: bs) = b.ms + beatsMs bs := rfl
@[simp] theorem beatsMs_append (bs cs : List Beat) : beatsMs (bs ++ cs) = beatsMs bs + beatsMs cs := by simp [beatsMs]
@[simp] theorem beatsMs_frame (b1 b2 : Byte) : beatsMs (frameBeats b1 b2) = 0 := rfl
@[simp] theorem beatsMs_gets (bs : List Byte) : beatsMs (bs.map .gets) = 0 := by
  simp [beatsMs, Function.comp_def, Beat.ms]
@[simp] theorem beatsMs_bytes (bs : List Byte) : beatsMs (bs.map .byte) = 0 := by
  simp [beatsMs, Function.comp_def, Beat.ms]
@[simp] theorem beatsMs_frameFails (b1 b2 : Byte) (k : Nat) : beatsMs (frameFailsBeats b1 b2 k) = 0 := by
  rw [frameFailsBeats, List.cons_append, beatsMs_cons, beatsMs_append, beatsMs_bytes]
  rfl

/-- A reading that is answered is tested (R201). -/
theorem Reading.tested_answered (pad w a : Byte) (ans : Answer) :
    (Reading.answered ans).tested pad w a = (Reading.answered ans).beats pad w a ++ [.quiet] := by
  rw [Reading.tested, Reading.failure, if_pos rfl]

/-- The time of a register read (R138, R165). -/
@[simp] theorem beatsMs_tested (pad w a : Byte) (r : Reading) : beatsMs (r.tested pad w a) = r.ms := by
  cases r <;> simp [Reading.tested, Reading.beats, Reading.failure, Reading.ms, Beat.ms]

theorem State.along_now' (s : State) (bs : List Beat) : (s.along bs).now = s.now + beatsMs bs := s.along_now bs

/-- The read of a register in window 1 that is answered (R165). -/
theorem Leads.answered1 (h : s.Alone) {p : Params} (hp : p = s.params) (addr : Byte) (a : Answer) :
    Leads s ((Reading.answered a).beats p.readPad 0x01 addr)
      ⟨op, readRegisterActs s.params addr 1#1 ++ todo, [], v, ws, id, ftw⟩ ⟨op, todo, [], a.value, ws, id, ftw⟩ := by
  have := Leads.answered (op := op) (todo := todo) (v := v) (ws := ws) (id := id) (ftw := ftw) h s.params addr 1#1 a
  rw [hp]
  rwa [show (1#1).zeroExtend 8 = (0x01 : Byte) by decide] at this

/-- The read of a register in window 1 that fails (R165). -/
theorem Falls.reading1 (h : s.Alone) {p : Params} (hp : p = s.params) (addr : Byte) {r : Reading} {f : Failure}
    (hr : r.possible s.stream.timeout.toNat) (hf : r.failure addr = some f) :
    Falls s (r.beats p.readPad 0x01 addr)
      ⟨op, readRegisterActs s.params addr 1#1 ++ todo, [], v, ws, id, ftw⟩ ⟨op, todo, [], v, ws, id, ftw⟩ f := by
  have := Falls.reading (op := op) (todo := todo) (v := v) (ws := ws) (id := id) (ftw := ftw) h s.params addr 1#1 hr hf
  rw [hp]
  rwa [show (1#1).zeroExtend 8 = (0x01 : Byte) by decide] at this

/-- The bound check of a poll within its bound (R201). -/
theorem Leads.pollCheck (h : s.Alone) {q : Poll} {start : Nat} (hw : q.window = 1#1) (hb : s.now - start < q.bound) :
    Leads s [.quiet] ⟨op, .pollCheck q start :: todo, [], v, ws, id, ftw⟩
      ⟨op, readRegisterActs s.params q.addr 1#1 ++ (.pollTest q start :: todo), [], v, ws, id, ftw⟩ :=
  .quiet h (fun ds => by
    simp only [State.act, State.checkPoll]
    refine (if_neg (show ¬ q.bound ≤ s.now - start by omega)).trans ?_
    simp only [attemptActs, List.append_assoc, hw]
    rfl)

/-- The test of a value that does not end a poll (R201). -/
theorem Leads.pollTestSet (h : s.Alone) {q : Poll} {start : Nat} (hv : v &&& q.mask ≠ 0#16) :
    Leads s [.quiet] ⟨op, .pollTest q start :: todo, [], v, ws, id, ftw⟩
      ⟨op, .sleep q.interval :: .pollCheck q start :: todo, [], v, ws, id, ftw⟩ :=
  .quiet h (fun ds => by
    simp only [State.act, State.testPoll]
    exact if_neg hv)

/-- The test of a value that ends a poll (R201). -/
theorem Leads.pollTestClear (h : s.Alone) {q : Poll} {start : Nat} (hv : v &&& q.mask = 0#16) :
    Leads s [.quiet] ⟨op, .pollTest q start :: todo, [], v, ws, id, ftw⟩ ⟨op, todo, [], v, ws, id, ftw⟩ :=
  .quiet h (fun ds => by
    simp only [State.act, State.testPoll]
    exact if_pos hv)

/-- A sleep (R14). -/
theorem Leads.sleep (h : s.Alone) (ms : Nat) :
    Leads s [.sleep ms] ⟨op, .sleep ms :: todo, buf, v, ws, id, ftw⟩ ⟨op, todo, buf, v, ws, id, ftw⟩ :=
  .act h (.sleep ms) rfl (fun _ => rfl)

/-- An attempt that does not end a poll (R201, R202). -/
theorem Leads.attempt (h : s.Alone) {q : Poll} {bit start : Nat} (hw : q.window = 1#1) (hm : q.mask = BitVec.twoPow 16 bit)
    (hi : bit < 16) (hb : s.now - start < q.bound) {r : Reading} (hp : r.possible s.stream.timeout.toNat)
    (hr : ∀ a, r = .answered a → a.value.getLsbD bit = true) :
    ∃ v', Leads s (.quiet :: r.tested s.params.readPad 0x01 q.addr ++ [.sleep q.interval])
      ⟨op, .pollCheck q start :: todo, [], v, ws, id, ftw⟩ ⟨op, .pollCheck q start :: todo, [], v', ws, id, ftw⟩ := by
  have h1 := Leads.pollCheck (op := op) (todo := todo) (v := v) (ws := ws) (id := id) (ftw := ftw) h hw hb
  have hs : s.params = (s.along [.quiet]).params := (s.along_params _).symm
  cases hf : r.failure q.addr with
  | none =>
    obtain ⟨a, rfl⟩ : ∃ a, r = .answered a := by cases r <;> simp [Reading.failure] at hf ⊢
    have h2 := Leads.answered1 (op := op) (todo := .pollTest q start :: todo) (v := v) (ws := ws) (id := id) (ftw := ftw)
      (h.along [.quiet]) hs q.addr a
    rw [← hs] at h2
    have h4 := ((h1.trans h2).trans (.pollTestSet (h.along _) (maskSet hm hi (hr a rfl)))).trans (.sleep (h.along _) _)
    refine ⟨a.value, ?_⟩
    rw [Reading.tested, if_pos hf]
    simpa only [List.append_assoc, List.cons_append, List.nil_append] using h4
  | some f =>
    have h2 := Falls.reading1 (op := op) (todo := .pollTest q start :: todo) (v := v) (ws := ws) (id := id) (ftw := ftw)
      (h.along [.quiet]) hs q.addr (by simpa using hp) hf
    rw [← hs] at h2
    have h3 := (h1.falls h2).stopped rfl
    rw [Bool.or_false] at h3
    have h4 := h3.trans (.sleep (h.along _) _)
    refine ⟨v, ?_⟩
    rw [Reading.tested, if_neg (by rw [hf]; nofun)]
    simpa only [List.append_assoc, List.cons_append, List.nil_append, List.append_nil] using h4

/-- The attempts that do not end a poll (R201, R202). -/
theorem Leads.attempts (h : s.Alone) {q : Poll} {bit start : Nat} (hw : q.window = 1#1)
    (hm : q.mask = BitVec.twoPow 16 bit) (hi : bit < 16) (early : List Reading) (hs : start ≤ s.now)
    (hb : ∀ front last tail, early = front ++ last :: tail → s.now - start + attemptsMs q.interval front < q.bound)
    (hp : ∀ r ∈ early, r.possible s.stream.timeout.toNat ∧ ∀ a, r = .answered a → a.value.getLsbD bit = true) :
    ∃ v', Leads s (early.flatMap (fun r => .quiet :: r.tested s.params.readPad 0x01 q.addr ++ [.sleep q.interval]))
      ⟨op, .pollCheck q start :: todo, [], v, ws, id, ftw⟩ ⟨op, .pollCheck q start :: todo, [], v', ws, id, ftw⟩ := by
  induction early generalizing s v with
  | nil => exact ⟨v, .refl _ _⟩
  | cons r rs ih =>
    obtain ⟨v', h1⟩ := Leads.attempt (op := op) (todo := todo) (v := v) (ws := ws) (id := id) (ftw := ftw) h hw hm hi
      (by simpa [attemptsMs] using hb [] r rs rfl) (hp r (List.mem_cons_self ..)).1 (hp r (List.mem_cons_self ..)).2
    have hn : (s.along (.quiet :: r.tested s.params.readPad 0x01 q.addr ++ [.sleep q.interval])).now =
        s.now + (r.ms + q.interval) := by
      rw [State.along_now']; simp [Beat.ms]
    obtain ⟨v'', h2⟩ := ih (s := s.along (.quiet :: r.tested s.params.readPad 0x01 q.addr ++ [.sleep q.interval])) (v := v')
      (h.along _) (by omega)
      (fun front last tail he => by
        have := hb (r :: front) last tail (by rw [he]; rfl)
        rw [hn]
        have hc : attemptsMs q.interval (r :: front) = (r.ms + q.interval) + attemptsMs q.interval front := rfl
        omega)
      (fun r' hr' => by simpa using hp r' (List.mem_cons_of_mem _ hr'))
    rw [State.along_params] at h2
    exact ⟨v'', h1.trans h2⟩

/-- The start of a poll (R201). -/
theorem Leads.pollStart (h : s.Alone) (q : Poll) :
    Leads s [.quiet] ⟨op, .pollStart q :: todo, [], v, ws, id, ftw⟩ ⟨op, .pollCheck q s.now :: todo, [], v, ws, id, ftw⟩ :=
  .quiet h (fun _ => rfl)

/-- A poll up to its last check (R201, R202). -/
theorem Leads.pollEarly (h : s.Alone) {q : Poll} {bit : Nat} (hw : q.window = 1#1) (hm : q.mask = BitVec.twoPow 16 bit)
    (hi : bit < 16) {p : PollRun} (hp : p.possible s.stream.timeout.toNat bit q.interval q.bound) :
    ∃ v', Leads s (.quiet :: p.early.flatMap
        (fun r => .quiet :: r.tested s.params.readPad 0x01 q.addr ++ [.sleep q.interval]))
      ⟨op, .pollStart q :: todo, [], v, ws, id, ftw⟩ ⟨op, .pollCheck q s.now :: todo, [], v', ws, id, ftw⟩ := by
  have hb : ∀ front last tail, p.early = front ++ last :: tail → attemptsMs q.interval front < q.bound := by
    intro front last tail he
    obtain ⟨-, hp⟩ := hp
    cases hr : p.ready with
    | some a =>
      rw [hr, he, attemptsMs_append] at hp
      have := hp.2
      omega
    | none =>
      rw [hr] at hp
      obtain ⟨f, l, hfl⟩ := List.eq_nil_or_concat (last :: tail) |>.resolve_left (List.cons_ne_nil _ _)
      have := hp.2 (front ++ f) l (by rw [he, hfl, List.concat_eq_append, List.append_assoc])
      rw [attemptsMs_append] at this
      omega
  obtain ⟨v', h2⟩ := Leads.attempts (op := op) (todo := todo) (v := v) (ws := ws) (id := id) (ftw := ftw)
    (h.along [.quiet]) (q := q) (start := s.now) hw hm hi p.early (Nat.le_refl _)
    (fun front last tail he => by
      have := hb front last tail he
      have hn : (s.along [.quiet]).now = s.now := rfl
      omega)
    (by simpa using hp.1)
  exact ⟨v', (Leads.pollStart h q).trans h2⟩

/-- A poll that becomes ready (R201, R202). -/
theorem Leads.poll (h : s.Alone) {q : Poll} {bit : Nat} (hw : q.window = 1#1) (hm : q.mask = BitVec.twoPow 16 bit)
    (hi : bit < 16) {p : PollRun} (hp : p.possible s.stream.timeout.toNat bit q.interval q.bound) {a : Answer}
    (hr : p.ready = some a) :
    Leads s (p.beats s.params.readPad q.addr q.interval)
      ⟨op, .pollStart q :: todo, [], v, ws, id, ftw⟩ ⟨op, todo, [], a.value, ws, id, ftw⟩ := by
  obtain ⟨v', h1⟩ := Leads.pollEarly (op := op) (todo := todo) (v := v) (ws := ws) (id := id) (ftw := ftw) h hw hm hi hp
  have hp' := hp.2
  rw [hr] at hp'
  obtain ⟨bs, hbs⟩ : ∃ bs, bs = .quiet :: p.early.flatMap
    (fun r => .quiet :: r.tested s.params.readPad 0x01 q.addr ++ [.sleep q.interval]) := ⟨_, rfl⟩
  have hn : (s.along bs).now = s.now + attemptsMs q.interval p.early := by
    rw [State.along_now', hbs]
    generalize p.early = l
    induction l with
    | nil => rfl
    | cons r rs ih =>
      simp [attemptsMs, Beat.ms] at ih ⊢
      omega
  rw [← hbs] at h1
  have hs : s.params = (s.along bs).params := (s.along_params _).symm
  have h2 := Leads.pollCheck (op := op) (todo := todo) (v := v') (ws := ws) (id := id) (ftw := ftw) (h.along bs)
    (start := s.now) hw (by omega)
  have hs' : s.params = (s.along (bs ++ [.quiet])).params := (s.along_params _).symm
  have h3 := Leads.answered1 (op := op) (todo := .pollTest q s.now :: todo) (v := v') (ws := ws) (id := id) (ftw := ftw)
    (h.along (bs ++ [.quiet])) hs' q.addr a
  rw [← hs] at h2
  rw [← hs'] at h3
  have h5 := ((h1.trans h2).trans h3).trans (.pollTestClear (h.along _) (maskClear hm hp'.1))
  have e : p.beats s.params.readPad q.addr q.interval =
      bs ++ [.quiet] ++ (Reading.answered a).beats s.params.readPad 0x01 q.addr ++ [.quiet] := by
    simp only [PollRun.beats, hr, Reading.tested, Reading.failure, if_true, List.append_assoc, List.cons_append,
      List.nil_append, hbs]
  rw [e]
  exact h5

/-- A poll that expires (R201, R202). -/
theorem Falls.poll (h : s.Alone) {q : Poll} {bit : Nat} (hw : q.window = 1#1) (hm : q.mask = BitVec.twoPow 16 bit)
    (hi : bit < 16) {p : PollRun} (hp : p.possible s.stream.timeout.toNat bit q.interval q.bound) (hr : p.ready = none) :
    ∃ v', Falls s (p.beats s.params.readPad q.addr q.interval)
      ⟨op, .pollStart q :: todo, [], v, ws, id, ftw⟩ ⟨op, todo, [], v', ws, id, ftw⟩ .pollExpired := by
  obtain ⟨v', h1⟩ := Leads.pollEarly (op := op) (todo := todo) (v := v) (ws := ws) (id := id) (ftw := ftw) h hw hm hi hp
  have hp' := hp.2
  rw [hr] at hp'
  obtain ⟨bs, hbs⟩ : ∃ bs, bs = .quiet :: p.early.flatMap
    (fun r => .quiet :: r.tested s.params.readPad 0x01 q.addr ++ [.sleep q.interval]) := ⟨_, rfl⟩
  have hn : (s.along bs).now = s.now + attemptsMs q.interval p.early := by
    rw [State.along_now', hbs]
    generalize p.early = l
    induction l with
    | nil => rfl
    | cons r rs ih =>
      simp [attemptsMs, Beat.ms] at ih ⊢
      omega
  rw [← hbs] at h1
  have h2 : Falls (s.along bs) [.quiet] ⟨op, .pollCheck q s.now :: todo, [], v', ws, id, ftw⟩
      ⟨op, todo, [], v', ws, id, ftw⟩ .pollExpired :=
    .beat (h.along bs) .quiet rfl (fun ds => by
      simp only [State.act, State.checkPoll]
      exact if_pos (show q.bound ≤ (s.along bs).now - s.now by omega))
  refine ⟨v', ?_⟩
  rw [PollRun.beats, hr, ← hbs]
  exact h1.falls h2

/-! ## Flash runs -/

/-- A register write in window 1 (R162). -/
theorem Leads.write (h : s.Alone) (a x : Byte) :
    Leads s (writeBeats 0x01 a x none) ⟨op, writeWinActs 1#1 a x ++ todo, buf, v, ws, id, ftw⟩ ⟨op, todo, buf, v, ws, id, ftw⟩ :=
  (Leads.frame h (c := selectCommand 1#1) (todo := .frame ⟨0x00, a, x⟩ a :: todo) rfl 0xFE).trans
    (.frame (h.along _) (c := ⟨0x00, a, x⟩) rfl a)

/-- A register write in window 1 that the platform fails (R136, R162). -/
theorem Falls.write (h : s.Alone) (a x : Byte) {place : Bool × Nat} (hk : place.2 ≤ 3) :
    Falls s (writeBeats 0x01 a x (some place)) ⟨op, writeWinActs 1#1 a x ++ todo, buf, v, ws, id, ftw⟩
      ⟨op, todo, buf, v, ws, id, ftw⟩ (writeFailure a place) := by
  obtain ⟨second, k⟩ := place
  cases second with
  | false => exact (Falls.frame h (selectCommand 1#1) 0xFE hk).pass _ rfl rfl
  | true =>
    exact (Leads.frame h (c := selectCommand 1#1) (todo := .frame ⟨0x00, a, x⟩ a :: todo) rfl 0xFE).falls
      (.frame (h.along _) ⟨0x00, a, x⟩ a hk)

/-- A verify that finds its bit clear (R206, R210). -/
theorem Leads.verify (h : s.Alone) {mask : Half} (hv : v &&& mask = 0#16) :
    Leads s [.quiet] ⟨op, .verifyClear mask :: todo, [], v, ws, id, ftw⟩ ⟨op, todo, [], v, ws, id, ftw⟩ :=
  .quiet h (fun _ => if_pos hv)

/-- A verify that finds its bit set (R206, R210). -/
theorem Falls.verify (h : s.Alone) {mask : Half} (hv : v &&& mask ≠ 0#16) :
    Falls s [.quiet] ⟨op, .verifyClear mask :: todo, [], v, ws, id, ftw⟩ ⟨op, todo, [], v, ws, id, ftw⟩
      .verifyFlagSet :=
  .beat h .quiet rfl (fun _ => if_neg hv)

/-- The read of DIAG_STAT1 that is answered (R48, R165). -/
theorem Leads.answeredDiag (h : s.Alone) {p : Params} (hp : p = s.params) (a : Answer) :
    Leads s ((Reading.answered a).beats p.readPad 0x00 0x04)
      ⟨op, readRegisterActs p diagStat1 0#1 ++ todo, [], v, ws, id, ftw⟩ ⟨op, todo, [], a.value, ws, id, ftw⟩ := by
  have := Leads.answered (op := op) (todo := todo) (v := v) (ws := ws) (id := id) (ftw := ftw) h s.params diagStat1 0#1 a
  rw [hp]
  rwa [show (0#1).zeroExtend 8 = (0x00 : Byte) by decide] at this

/-- The read of DIAG_STAT1 that fails (R48, R165). -/
theorem Falls.readingDiag (h : s.Alone) {p : Params} (hp : p = s.params) {r : Reading} {f : Failure}
    (hr : r.possible s.stream.timeout.toNat) (hf : r.failure 0x04 = some f) :
    Falls s (r.beats p.readPad 0x00 0x04)
      ⟨op, readRegisterActs p diagStat1 0#1 ++ todo, [], v, ws, id, ftw⟩ ⟨op, todo, [], v, ws, id, ftw⟩ f := by
  have := Falls.reading (op := op) (todo := todo) (v := v) (ws := ws) (id := id) (ftw := ftw) h s.params diagStat1 0#1 hr hf
  rw [hp]
  rwa [show (0#1).zeroExtend 8 = (0x00 : Byte) by decide] at this

/-- The positions of a flash run (R206, R210). -/
def flashActs (p : Params) (job : FlashJob) (q : Poll) (mask : Half) (todo : List Act) : List Act :=
  writeWinActs 1#1 job.command job.value ++
    (.pollStart q :: (readRegisterActs p diagStat1 0#1 ++ (.verifyClear mask :: todo)))

/-- The poll and the mask of a flash job. -/
structure FlashJob.Fits (job : FlashJob) (q : Poll) (mask : Half) : Prop where
  window : q.window = 1#1
  addr : q.addr = job.pollAddr
  interval : q.interval = 100
  bound : q.bound = 5000
  pollMask : q.mask = BitVec.twoPow 16 job.pollBit
  bit : job.pollBit < 16
  verify : mask = BitVec.twoPow 16 job.verifyBit
  verifyBit : job.verifyBit < 16

theorem FlashJob.backup_fits : FlashJob.backup.Fits backupPoll flashBuErr :=
  ⟨rfl, rfl, rfl, rfl, by decide, by decide, by decide, by decide⟩

theorem FlashJob.test_fits : FlashJob.test.Fits testPoll flashErr :=
  ⟨rfl, rfl, rfl, rfl, by decide, by decide, by decide, by decide⟩

/-- The command and the poll of a flash run that becomes ready (R206, R210). -/
theorem Leads.flashPolled (h : s.Alone) {p : Params} (hp : p = s.params) {job : FlashJob} {q : Poll} {mask : Half}
    (hj : job.Fits q mask) {early : List Reading} {g : Answer}
    (hr : PollRun.possible s.stream.timeout.toNat job.pollBit 100 5000 ⟨early, some g⟩) :
    Leads s (writeBeats 0x01 job.command job.value none ++ PollRun.beats p.readPad job.pollAddr 100 ⟨early, some g⟩)
      ⟨op, flashActs p job q mask todo, [], v, ws, id, ftw⟩
      ⟨op, readRegisterActs p diagStat1 0#1 ++ (.verifyClear mask :: todo), [], g.value, ws, id, ftw⟩ := by
  subst hp
  have hr' : PollRun.possible (s.along (writeBeats 0x01 job.command job.value none)).stream.timeout.toNat job.pollBit q.interval
      q.bound ⟨early, some g⟩ := by
    rw [hj.interval, hj.bound, State.along_stream]
    exact hr
  have h2 := Leads.poll (op := op) (todo := readRegisterActs s.params diagStat1 0#1 ++ (.verifyClear mask :: todo)) (v := v)
    (ws := ws) (id := id) (ftw := ftw) (h.along (writeBeats 0x01 job.command job.value none)) hj.window hj.pollMask hj.bit
    hr' rfl
  rw [hj.addr, hj.interval, State.along_params] at h2
  exact (Leads.write h _ _).trans h2

/-- A flash run that passes (R206, R210). -/
theorem Leads.flash (h : s.Alone) {p : Params} (hp : p = s.params) {job : FlashJob} {q : Poll} {mask : Half}
    (hj : job.Fits q mask) {r : FlashRun} (hr : r.possible s.stream.timeout.toNat job) (hf : r.failure job = none) :
    ∃ v', Leads s (r.beats p.readPad job) ⟨op, flashActs p job q mask todo, [], v, ws, id, ftw⟩
      ⟨op, todo, [], v', ws, id, ftw⟩ := by
  cases r with
  | commandFails f => cases hf
  | expires early => cases hf
  | verified early g r =>
    obtain ⟨d, rfl, hd⟩ : ∃ d, r = .answered d ∧ d.value.getLsbD job.verifyBit = false := by
      cases r <;> simp [FlashRun.failure, Reading.failure] at hf ⊢
      exact hf
    have h1 := Leads.flashPolled (op := op) (todo := todo) (v := v) (ws := ws) (id := id) (ftw := ftw) h hp hj hr.1
    have h2 := (h1.trans (.answeredDiag (h.along _) (by simpa using hp) d)).trans
      (.verify (h.along _) (maskClear hj.verify hd))
    refine ⟨d.value, ?_⟩
    rw [FlashRun.beats, Reading.tested_answered, ← List.append_assoc (_ ++ _)]
    exact h2

/-- A flash run that fails (R206, R210). -/
theorem Falls.flash (h : s.Alone) {p : Params} (hp : p = s.params) {job : FlashJob} {q : Poll} {mask : Half}
    (hj : job.Fits q mask) {r : FlashRun} (hr : r.possible s.stream.timeout.toNat job) {f : Failure}
    (hf : r.failure job = some f) :
    ∃ v', Falls s (r.beats p.readPad job) ⟨op, flashActs p job q mask todo, [], v, ws, id, ftw⟩
      ⟨op, todo, [], v', ws, id, ftw⟩ f := by
  cases r with
  | commandFails place =>
    cases hf
    exact ⟨v, (Falls.write h _ _ hr).pass _ rfl rfl⟩
  | expires early =>
    cases hf
    subst hp
    have hr' : PollRun.possible (s.along (writeBeats 0x01 job.command job.value none)).stream.timeout.toNat job.pollBit q.interval
        q.bound ⟨early, none⟩ := by
      rw [hj.interval, hj.bound, State.along_stream]
      exact hr
    obtain ⟨v', h2⟩ := Falls.poll (op := op) (todo := readRegisterActs s.params diagStat1 0#1 ++ (.verifyClear mask :: todo))
      (v := v) (ws := ws) (id := id) (ftw := ftw) (h.along (writeBeats 0x01 job.command job.value none)) hj.window hj.pollMask hj.bit
      hr' rfl
    rw [hj.addr, hj.interval, State.along_params] at h2
    exact ⟨v', ((Leads.write h _ _).falls h2).pass _ rfl rfl⟩
  | verified early g r =>
    have h1 := Leads.flashPolled (op := op) (todo := todo) (v := v) (ws := ws) (id := id) (ftw := ftw) h hp hj hr.1
    cases hd : r.failure 0x04 with
    | none =>
      obtain ⟨d, rfl⟩ : ∃ d, r = .answered d := by cases r <;> simp [Reading.failure] at hd ⊢
      obtain ⟨hb, rfl⟩ : d.value.getLsbD job.verifyBit = true ∧ Failure.verifyFlagSet = f := by
        simpa [FlashRun.failure] using hf
      have h2 := (h1.trans (.answeredDiag (h.along _) (by simpa using hp) d)).falls
        (.verify (h.along _) (maskSet hj.verify hj.verifyBit hb))
      refine ⟨d.value, ?_⟩
      rw [FlashRun.beats, Reading.tested_answered, ← List.append_assoc (_ ++ _)]
      exact h2
    | some f' =>
      obtain rfl : f' = f := by
        cases r <;> simp [FlashRun.failure, Reading.failure] at hf hd <;> rw [← hd, ← hf]
      have h2 := h1.falls (.readingDiag (h.along _) (by simpa using hp) (by simpa using hr.2) hd)
      refine ⟨g.value, ?_⟩
      rw [FlashRun.beats, Reading.tested, if_neg (by rw [hd]; nofun), List.append_nil]
      exact h2.pass _ rfl rfl

/-! ## The other parts -/

/-- The mask of waitUntilReady (R214). -/
theorem notReady_eq : notReady = BitVec.twoPow 16 10 := by decide

/-- A readiness wait that ends (R214). -/
theorem Leads.wait (h : s.Alone) {p : Params} (hp : p = s.params) {bound : Nat} {r : PollRun}
    (hr : r.possible s.stream.timeout.toNat 10 50 bound) (hn : r.failure = none) :
    ∃ v', Leads s (r.beats p.readPad 0x0A 50) ⟨op, .pollStart (readyPoll bound) :: todo, [], v, ws, id, ftw⟩
      ⟨op, todo, [], v', ws, id, ftw⟩ := by
  subst hp
  cases hd : r.ready with
  | none => simp [PollRun.failure, hd] at hn
  | some a =>
    exact ⟨a.value, Leads.poll (op := op) (todo := todo) (v := v) (ws := ws) (id := id) (ftw := ftw) h
      (q := readyPoll bound) (bit := 10) rfl notReady_eq (by decide) hr hd⟩

/-- A readiness wait that expires (R214). -/
theorem Falls.wait (h : s.Alone) {p : Params} (hp : p = s.params) {bound : Nat} {r : PollRun}
    (hr : r.possible s.stream.timeout.toNat 10 50 bound) {f : Failure} (hf : r.failure = some f) :
    ∃ v', Falls s (r.beats p.readPad 0x0A 50) ⟨op, .pollStart (readyPoll bound) :: todo, [], v, ws, id, ftw⟩
      ⟨op, todo, [], v', ws, id, ftw⟩ f := by
  subst hp
  cases hd : r.ready with
  | none =>
    simp only [PollRun.failure, hd, if_true, Option.some.injEq] at hf
    subst hf
    exact Falls.poll (op := op) (todo := todo) (v := v) (ws := ws) (id := id) (ftw := ftw) h
      (q := readyPoll bound) (bit := 10) rfl notReady_eq (by decide) hr hd
  | some a => simp [PollRun.failure, hd] at hf

/-- softwareReset that passes (R217). -/
theorem Leads.softwareReset (h : s.Alone) {p : Params} (hp : p = s.params) {r : ResetRun}
    (hr : r.possible s.stream.timeout.toNat) (hf : r.failure = none) :
    ∃ v', Leads s (r.beats p.readPad) ⟨op, softwareResetActs ++ todo, [], v, ws, id, ftw⟩
      ⟨op, todo, [], v', ws, id, ftw⟩ := by
  cases r with
  | commandFails f => cases hf
  | polled wait =>
    obtain ⟨v', h2⟩ := Leads.wait (op := op) (todo := todo) (v := v) (ws := ws) (id := id) (ftw := ftw)
      (h.along (writeBeats 0x01 0x8A 0x80 none)) (p := p) (by simpa using hp) (bound := 7000) (r := wait)
      (by simpa [ResetRun.possible] using hr) hf
    exact ⟨v', (Leads.write h 0x8A 0x80).trans h2⟩

/-- softwareReset that fails (R217). -/
theorem Falls.softwareReset (h : s.Alone) {p : Params} (hp : p = s.params) {r : ResetRun}
    (hr : r.possible s.stream.timeout.toNat) {f : Failure} (hf : r.failure = some f) :
    ∃ v', Falls s (r.beats p.readPad) ⟨op, softwareResetActs ++ todo, [], v, ws, id, ftw⟩
      ⟨op, todo, [], v', ws, id, ftw⟩ f := by
  cases r with
  | commandFails place =>
    cases hf
    exact ⟨v, (Falls.write h 0x8A 0x80 hr).pass _ rfl rfl⟩
  | polled wait =>
    obtain ⟨v', h2⟩ := Falls.wait (op := op) (todo := todo) (v := v) (ws := ws) (id := id) (ftw := ftw)
      (h.along (writeBeats 0x01 0x8A 0x80 none)) (p := p) (by simpa using hp) (bound := 7000) (r := wait)
      (by simpa [ResetRun.possible] using hr) hf
    exact ⟨v', (Leads.write h 0x8A 0x80).falls h2⟩

/-- Entering a non-fatal part (R268). -/
theorem Leads.enter (h : s.Alone) {p : Params} (hp : p = s.params) (g : Guard) :
    Leads s [.quiet] ⟨op, .enter g :: todo, [], v, ws, id, ftw⟩
      ⟨op, guardActs p g ++ todo, [], v, ws, id, ftw⟩ := by
  subst hp
  exact .quiet h (fun _ => rfl)

/-- Leaving a non-fatal part that did not fail (R268). -/
theorem Leads.leave (h : s.Alone) (g : Guard) :
    Leads s [.quiet] ⟨op, .leave g :: todo, [], v, ws, id, ftw⟩ ⟨op, todo, [], v, ws, id, ftw⟩ :=
  .quiet h (fun _ => rfl)

/-- The closing select of window 0, which fails without consequence (R186, R219, R268). -/
theorem Leads.courtesy (h : s.Alone) {c : Option Nat} (hc : courtesyPossible c) :
    Leads s (courtesyBeats c) ⟨op, .enter .courtesy :: todo, [], v, ws, id, ftw⟩ ⟨op, todo, [], v, ws, id, ftw⟩ := by
  have h1 := Leads.enter (op := op) (todo := todo) (v := v) (ws := ws) (id := id) (ftw := ftw) h rfl .courtesy
  cases c with
  | none =>
    exact (h1.trans (.frame (h.along [.quiet]) (c := selectCommand 0#1) (todo := .leave .courtesy :: todo) rfl 0xFE)).trans
      (.leave (h.along _) .courtesy)
  | some k =>
    have h2 := (h1.falls (.frame (h.along [.quiet]) (selectCommand 0#1) 0xFE (hc k rfl))).stopped
      (todo := todo) (w := false) rfl
    rw [Bool.or_false] at h2
    exact h2

/-- exitAutoMode up to its clear of UART_CTRL, confirmed (R219). -/
theorem Leads.modeConfirmed (h : s.Alone) {p : Params} (hp : p = s.params) {m : Answer} (hm : m.value.getLsbD 10 = true) :
    Leads s (writeBeats 0x00 0x83 0x02 none ++ [.sleep 50] ++ frameBeats 0x02 p.readPad ++ m.bytes.map .gets ++
        [.quiet, .quiet])
      ⟨op, writeWinActs 0#1 modeMscWrite modeExitValue ++ (.sleep tModeExit :: (readUnselectedActs p modeMscRead ++
        (.confirmSet configMode :: todo))), [], v, ws, id, ftw⟩ ⟨op, todo, [], m.value, ws, id, ftw⟩ := by
  subst hp
  have h1 : Leads s (writeBeats 0x00 0x83 0x02 none) ⟨op, writeWinActs 0#1 modeMscWrite modeExitValue ++
      (.sleep tModeExit :: (readUnselectedActs s.params modeMscRead ++ (.confirmSet configMode :: todo))), [], v, ws, id,
      ftw⟩ ⟨op, .sleep tModeExit :: (readUnselectedActs s.params modeMscRead ++ (.confirmSet configMode :: todo)), [], v, ws,
      id, ftw⟩ :=
    (Leads.frame h (c := selectCommand 0#1) rfl 0xFE).trans (.frame (h.along _) (c := ⟨0x00, 0x83, 0x02⟩) rfl 0x83)
  have h2 := (h1.trans (.sleep (h.along _) _)).trans (.readUnselected (h.along _) s.params modeMscRead m)
  have h3 : ∀ bs, Leads (s.along bs) [.quiet] ⟨op, .confirmSet configMode :: todo, [], m.value, ws, id, ftw⟩
      ⟨op, todo, [], m.value, ws, id, ftw⟩ := fun bs =>
    .quiet (h.along bs) (fun _ => if_neg (maskSet (i := 10) (by decide) (by decide) hm))
  have h4 := h2.trans (h3 _)
  have e : writeBeats 0x00 0x83 0x02 none ++ [.sleep 50] ++ frameBeats 0x02 s.params.readPad ++ m.bytes.map .gets ++
      [.quiet, .quiet] = writeBeats 0x00 0x83 0x02 none ++ [.sleep tModeExit] ++
      (frameBeats modeMscRead s.params.readPad ++ m.bytes.map .gets ++ [.quiet]) ++ [.quiet] := by
    simp only [List.append_assoc, List.cons_append, List.nil_append]
    rfl
  rw [e]
  exact h4

/-- exitAutoMode up to its flash backup (R219). -/
theorem Leads.modeExit (h : s.Alone) {p : Params} (hp : p = s.params) {m : Answer} (hm : m.value.getLsbD 10 = true) :
    Leads s (modeExitBeats p.readPad m none)
      ⟨op, writeWinActs 0#1 modeMscWrite modeExitValue ++ (.sleep tModeExit :: (readUnselectedActs p modeMscRead ++
        (.confirmSet configMode :: (writeWinActs 1#1 uartCtrl 0x00 ++ todo)))), [], v, ws, id, ftw⟩
      ⟨op, todo, [], m.value, ws, id, ftw⟩ :=
  (Leads.modeConfirmed h hp hm).trans (.write (h.along _) uartCtrl 0x00)

/-- exitAutoMode whose clear of UART_CTRL fails (R219). -/
theorem Falls.modeExit (h : s.Alone) {p : Params} (hp : p = s.params) {m : Answer} (hm : m.value.getLsbD 10 = true)
    {place : Bool × Nat} (hk : place.2 ≤ 3) :
    Falls s (modeExitBeats p.readPad m (some place))
      ⟨op, writeWinActs 0#1 modeMscWrite modeExitValue ++ (.sleep tModeExit :: (readUnselectedActs p modeMscRead ++
        (.confirmSet configMode :: (writeWinActs 1#1 uartCtrl 0x00 ++ todo)))), [], v, ws, id, ftw⟩
      ⟨op, todo, [], m.value, ws, id, ftw⟩ (writeFailure 0x88 place) :=
  (Leads.modeConfirmed h hp hm).falls (.write (h.along _) uartCtrl 0x00 hk)

/-- ResetSpell (R170). -/
theorem Leads.spell (h : s.Alone) :
    Leads s spellBeats ⟨op, resetSpellActs ++ todo, buf, v, ws, id, ftw⟩ ⟨op, todo, buf, v, ws, id, ftw⟩ :=
  ((Leads.frame h (c := ⟨0x00, 0xFF, 0xFF⟩) rfl 0xFF).trans (.frame (h.along _) (c := ⟨0x00, 0xFF, 0xFF⟩) rfl 0xFF)).trans
    (.frame (h.along _) (c := ⟨0x00, 0xFF, 0xFF⟩) rfl 0xFF)

/-- ResetSpell that the platform fails (R136, R170). -/
theorem Falls.spell (h : s.Alone) {j k : Nat} (hj : j ≤ 2) (hk : k ≤ 3) :
    Falls s (spellFailsBeats j k) ⟨op, resetSpellActs ++ todo, buf, v, ws, id, ftw⟩ ⟨op, todo, buf, v, ws, id, ftw⟩
      (.transport .io (some 0xFF)) := by
  have h1 : ∀ t, Leads s (frameBeats 0xFF 0xFF) ⟨op, .frame ⟨0x00, 0xFF, 0xFF⟩ 0xFF :: t, buf, v, ws, id, ftw⟩
      ⟨op, t, buf, v, ws, id, ftw⟩ := fun t => .frame h (c := ⟨0x00, 0xFF, 0xFF⟩) rfl 0xFF
  have h2 : ∀ bs t, Leads (s.along bs) (frameBeats 0xFF 0xFF) ⟨op, .frame ⟨0x00, 0xFF, 0xFF⟩ 0xFF :: t, buf, v, ws, id, ftw⟩
      ⟨op, t, buf, v, ws, id, ftw⟩ := fun bs t => .frame (h.along bs) (c := ⟨0x00, 0xFF, 0xFF⟩) rfl 0xFF
  have h3 : ∀ bs t, Falls (s.along bs) (frameFailsBeats 0xFF 0xFF k)
      ⟨op, .frame ⟨0x00, 0xFF, 0xFF⟩ 0xFF :: t, buf, v, ws, id, ftw⟩ ⟨op, t, buf, v, ws, id, ftw⟩
      (.transport .io (some 0xFF)) := fun bs t => .frame (h.along bs) ⟨0x00, 0xFF, 0xFF⟩ 0xFF hk
  obtain rfl | rfl | rfl : j = 0 ∨ j = 1 ∨ j = 2 := by omega
  · exact (h3 [] _).pass _ rfl rfl
  · exact ((h1 _).falls (h3 _ _)).pass _ rfl rfl
  · exact (((h1 _).trans (h2 _ _)).falls (h3 _ _)).pass _ rfl rfl

/-- setUartAutoStart that passes (R203). -/
theorem Leads.arm (h : s.Alone) :
    Leads s ArmRun.armed.beats ⟨op, setUartAutoStartActs ++ todo, [], v, ws, id, ftw⟩ ⟨op, todo, [], v, ws, id, ftw⟩ :=
  ((Leads.spell h).trans (.sleep (h.along _) tSettle)).trans (.write (h.along _) uartCtrl uartAutoOn)

/-- setUartAutoStart that fails (R203). -/
theorem Falls.arm (h : s.Alone) {r : ArmRun} (hr : r.possible) {f : Failure} (hf : r.failure = some f) :
    Falls s r.beats ⟨op, setUartAutoStartActs ++ todo, [], v, ws, id, ftw⟩ ⟨op, todo, [], v, ws, id, ftw⟩ f := by
  cases r with
  | spellFails j k =>
    cases hf
    exact (Falls.spell (todo := .sleep tSettle :: (writeWinActs 1#1 uartCtrl uartAutoOn ++ todo)) h hr.1 hr.2).pass _ rfl rfl
  | commandFails place =>
    cases hf
    exact ((Leads.spell h).trans (.sleep (h.along _) tSettle)).falls (.write (h.along _) uartCtrl uartAutoOn hr)
  | armed => cases hf

/-- flashTest whose verify is clear: its readiness wait, ready or not, ends nothing (R210, R212). -/
theorem Leads.test (h : s.Alone) {p : Params} (hp : p = s.params) {t : TestRun} (ht : t.possible s.stream.timeout.toNat)
    (hf : t.failure = none) :
    ∃ v', Leads s (t.beats p.readPad) ⟨op, flashTestActs p ++ todo, [], v, ws, id, ftw⟩
      ⟨op, todo, [], v', ws, id, ftw⟩ := by
  obtain ⟨v1, h1⟩ := Leads.flash (op := op) (todo := .enter .trailingWait :: todo) (v := v) (ws := ws) (id := id)
    (ftw := ftw) h hp FlashJob.test_fits ht.1 hf
  have h2 := h1.trans (.enter (todo := todo) (p := p) (h.along _) (by simpa using hp) .trailingWait)
  have hw := ht.2 hf
  obtain ⟨bs, hbs⟩ : ∃ bs, bs = t.flash.beats p.readPad .test ++ [.quiet] := ⟨_, rfl⟩
  rw [← hbs] at h2
  have e : t.beats p.readPad = bs ++ (t.wait.beats p.readPad 0x0A 50 ++ if t.wait.ready = none then [] else [.quiet]) := by
    rw [TestRun.beats, if_pos hf, hbs]
    simp only [List.append_assoc, List.cons_append, List.nil_append]
  rw [e]
  have hwb : t.wait.possible (s.along bs).stream.timeout.toNat 10 50 2000 := by simpa using hw
  cases hr : t.wait.failure with
  | none =>
    obtain ⟨v2, h3⟩ := Leads.wait (op := op) (todo := .leave .trailingWait :: todo) (v := v1) (ws := ws) (id := id)
      (ftw := ftw) (h.along bs) (p := p) (by simpa using hp) hwb hr
    rw [if_neg (by intro hc; simp [PollRun.failure, hc] at hr), ← List.append_assoc]
    exact ⟨v2, (h2.trans h3).trans (.leave (h.along _) _)⟩
  | some f =>
    obtain ⟨v2, h3⟩ := Falls.wait (op := op) (todo := .leave .trailingWait :: todo) (v := v1) (ws := ws) (id := id)
      (ftw := ftw) (h.along bs) (p := p) (by simpa using hp) hwb hr
    rw [if_pos (by by_contra hc; simp [PollRun.failure, hc] at hr), List.append_nil]
    have h4 := h3.stopped (todo := todo) (w := false) rfl
    rw [Bool.or_false] at h4
    exact ⟨v2, h2.trans h4⟩

/-- flashTest that fails does so without its readiness wait (R210, R211). -/
theorem Falls.test (h : s.Alone) {p : Params} (hp : p = s.params) {t : TestRun} (ht : t.possible s.stream.timeout.toNat)
    {f : Failure} (hf : t.failure = some f) :
    ∃ v', Falls s (t.beats p.readPad) ⟨op, flashTestActs p ++ todo, [], v, ws, id, ftw⟩
      ⟨op, .enter .trailingWait :: todo, [], v', ws, id, ftw⟩ f := by
  rw [TestRun.beats, if_neg (by rw [hf]; nofun), List.append_nil]
  exact Falls.flash (op := op) (todo := .enter .trailingWait :: todo) (v := v) (ws := ws) (id := id)
    (ftw := ftw) h hp FlashJob.test_fits ht.1 hf

/-- fullReset's flashTest ends nothing; its failure is kept as `ftw` (R226, R268). -/
theorem Leads.guardedTest (h : s.Alone) {p : Params} (hp : p = s.params) {t : TestRun}
    (ht : t.possible s.stream.timeout.toNat) :
    ∃ v', Leads s (.quiet :: t.beats p.readPad ++ if t.failure = none then [.quiet] else [])
      ⟨op, .enter .flashTest :: todo, [], v, ws, id, ftw⟩ ⟨op, todo, [], v', ws, id, ftw || t.failure.isSome⟩ := by
  have h1 := Leads.enter (op := op) (todo := todo) (v := v) (ws := ws) (id := id) (ftw := ftw) h hp .flashTest
  have e : guardActs p .flashTest ++ todo = flashTestActs p ++ (.leave .flashTest :: todo) := by simp [guardActs]
  rw [e] at h1
  have ht' : t.possible (s.along [.quiet]).stream.timeout.toNat := by simpa using ht
  cases hf : t.failure with
  | none =>
    obtain ⟨v2, h2⟩ := Leads.test (op := op) (todo := .leave .flashTest :: todo) (v := v) (ws := ws) (id := id)
      (ftw := ftw) (h.along [.quiet]) (p := p) (by simpa using hp) ht' hf
    rw [if_pos rfl, Option.isSome_none, Bool.or_false]
    exact ⟨v2, (h1.trans h2).trans (.leave (h.along _) _)⟩
  | some f =>
    obtain ⟨v2, h2⟩ := Falls.test (op := op) (todo := .leave .flashTest :: todo) (v := v) (ws := ws) (id := id)
      (ftw := ftw) (h.along [.quiet]) (p := p) (by simpa using hp) ht' hf
    rw [if_neg nofun, List.append_nil]
    exact ⟨v2, h1.trans (h2.stopped (todo := todo) (w := true) rfl)⟩

/-- fullReset from its spell on, up to its softwareReset (R224, R226). -/
theorem Leads.reboot (h : s.Alone) {p : Params} (hp : p = s.params) {t : TestRun} (ht : t.possible s.stream.timeout.toNat) :
    ∃ v', Leads s (spellBeats ++ [.sleep 100, .quiet] ++ t.beats p.readPad ++ if t.failure = none then [.quiet] else [])
      ⟨op, resetSpellActs ++ (.sleep tSettle :: .enter .flashTest :: todo), [], v, ws, id, ftw⟩
      ⟨op, todo, [], v', ws, id, ftw || t.failure.isSome⟩ := by
  have h1 := (Leads.spell (op := op) (todo := .sleep tSettle :: .enter .flashTest :: todo) (buf := []) (v := v) (ws := ws)
    (id := id) (ftw := ftw) h).trans (.sleep (h.along _) tSettle)
  obtain ⟨v', h2⟩ := Leads.guardedTest (op := op) (todo := todo) (v := v) (ws := ws) (id := id) (ftw := ftw)
    (h.along (spellBeats ++ [.sleep tSettle])) (p := p) (by simpa using hp) (t := t) (by simpa using ht)
  refine ⟨v', ?_⟩
  have h3 := h1.trans h2
  simp only [List.append_assoc, List.cons_append, List.nil_append] at h3 ⊢
  exact h3

/-- fullReset from its spell on, where the softwareReset passes (R224, R227). -/
theorem Leads.fullReboot (h : s.Alone) {p : Params} (hp : p = s.params) {t : TestRun}
    (ht : t.possible s.stream.timeout.toNat) {r : ResetRun} (hr : r.possible s.stream.timeout.toNat)
    (hf : r.failure = none) :
    ∃ v', Leads s (rebootBeats p.readPad t r)
      ⟨op, resetSpellActs ++ (.sleep tSettle :: .enter .flashTest :: (softwareResetActs ++ (.sleep tStabilize :: todo))), [],
        v, ws, id, ftw⟩ ⟨op, todo, [], v', ws, id, ftw || t.failure.isSome⟩ := by
  obtain ⟨v1, h1⟩ := Leads.reboot (op := op) (todo := softwareResetActs ++ (.sleep tStabilize :: todo)) (v := v) (ws := ws)
    (id := id) (ftw := ftw) h hp ht
  obtain ⟨bs, hbs⟩ : ∃ bs, bs = (spellBeats ++ [.sleep 100, .quiet] ++ t.beats p.readPad ++
    if t.failure = none then [.quiet] else []) := ⟨_, rfl⟩
  rw [← hbs] at h1
  obtain ⟨v2, h2⟩ := Leads.softwareReset (op := op) (todo := .sleep tStabilize :: todo) (v := v1) (ws := ws) (id := id)
    (ftw := ftw || t.failure.isSome) (h.along bs) (p := p) (by simpa using hp) (r := r) (by simpa using hr) hf
  rw [rebootBeats, ← hbs, if_pos hf]
  exact ⟨v2, (h1.trans h2).trans (.sleep (h.along _) _)⟩

/-- fullReset from its spell on, where the softwareReset fails (R224, R227). -/
theorem Falls.fullReboot (h : s.Alone) {p : Params} (hp : p = s.params) {t : TestRun}
    (ht : t.possible s.stream.timeout.toNat) {r : ResetRun} (hr : r.possible s.stream.timeout.toNat) {f : Failure}
    (hf : r.failure = some f) :
    ∃ v', Falls s (rebootBeats p.readPad t r)
      ⟨op, resetSpellActs ++ (.sleep tSettle :: .enter .flashTest :: (softwareResetActs ++ (.sleep tStabilize :: todo))), [],
        v, ws, id, ftw⟩ ⟨op, .sleep tStabilize :: todo, [], v', ws, id, ftw || t.failure.isSome⟩ f := by
  obtain ⟨v1, h1⟩ := Leads.reboot (op := op) (todo := softwareResetActs ++ (.sleep tStabilize :: todo)) (v := v) (ws := ws)
    (id := id) (ftw := ftw) h hp ht
  obtain ⟨bs, hbs⟩ : ∃ bs, bs = (spellBeats ++ [.sleep 100, .quiet] ++ t.beats p.readPad ++
    if t.failure = none then [.quiet] else []) := ⟨_, rfl⟩
  rw [← hbs] at h1
  obtain ⟨v2, h2⟩ := Falls.softwareReset (op := op) (todo := .sleep tStabilize :: todo) (v := v1) (ws := ws) (id := id)
    (ftw := ftw || t.failure.isSome) (h.along bs) (p := p) (by simpa using hp) (r := r) (by simpa using hr) hf
  rw [rebootBeats, ← hbs, if_neg (by rw [hf]; nofun), List.append_nil]
  exact ⟨v2, h1.falls h2⟩

end

/-! ## How many beats -/

/-- The beats of a reading and of its test: at most 16. -/
theorem Reading.tested_length (pad w a : Byte) {r : Reading} {timeout : Nat} (h : r.possible timeout) :
    (r.tested pad w a).length ≤ 16 := by
  cases r <;> simp [Reading.tested, Reading.beats, Reading.failure, frameBeats, frameFailsBeats, Answer.bytes,
    Reading.possible] at h ⊢ <;> omega

/-- The attempts of a poll with interval at least 1 are no more than its bound and one. -/
theorem PollRun.early_length {p : PollRun} {timeout bit interval bound : Nat} (h : p.possible timeout bit interval bound)
    (hi : 0 < interval) : p.early.length ≤ bound + 1 := by
  have hl : ∀ l : List Reading, l.length ≤ attemptsMs interval l := fun l => by
    induction l with
    | nil => exact Nat.le_refl _
    | cons r rs ih => simp only [attemptsMs, List.map_cons, List.sum_cons, List.length_cons] at ih ⊢; omega
  obtain ⟨-, h⟩ := h
  split at h
  · have := hl p.early; omega
  · rcases List.eq_nil_or_concat p.early with he | ⟨front, last, he⟩
    · rw [he]; exact Nat.zero_le _
    · have h1 := h.2 front last (by rw [he, List.concat_eq_append])
      have h2 := hl front
      rw [he]
      simp
      omega

/-- The beats of a poll (R201). -/
theorem PollRun.beats_length {p : PollRun} {timeout bit interval bound : Nat} (pad a : Byte)
    (h : p.possible timeout bit interval bound) (hi : 0 < interval) :
    (p.beats pad a interval).length ≤ 18 * bound + 40 := by
  have he := p.early_length h hi
  have hl : ∀ l : List Reading, (∀ r ∈ l, r.possible timeout) →
      (l.flatMap (fun r => .quiet :: r.tested pad 0x01 a ++ [.sleep interval])).length ≤ 18 * l.length := fun l hl => by
    induction l with
    | nil => exact Nat.le_refl _
    | cons r rs ih =>
      have h1 := Reading.tested_length pad 0x01 a (hl r (List.mem_cons_self ..))
      have h2 := ih (fun r hr => hl r (List.mem_cons_of_mem _ hr))
      simp only [List.flatMap_cons, List.length_append, List.length_cons, List.length_nil] at h2 ⊢
      omega
  have h1 := hl p.early (fun r hr => (h.1 r hr).1)
  rw [PollRun.beats, List.length_append, List.length_cons]
  split
  · rename_i ans _
    have h2 := Reading.tested_length pad 0x01 a (r := .answered ans) (timeout := timeout) trivial
    rw [List.length_cons]
    omega
  · rw [List.length_singleton]
    omega

/-- The beats of a register write (R162). -/
theorem writeBeats_length (w a x : Byte) (place : Option (Bool × Nat)) : (writeBeats w a x place).length ≤ 10 := by
  obtain _ | ⟨_ | _, k⟩ := place <;> simp [writeBeats, frameBeats, frameFailsBeats] <;> omega

/-- The beats of a flash run (R206, R210). -/
theorem FlashRun.beats_length (pad : Byte) {job : FlashJob} {r : FlashRun} {timeout : Nat} (h : r.possible timeout job) :
    (r.beats pad job).length ≤ 100000 := by
  cases r with
  | commandFails f => have := writeBeats_length 0x01 job.command job.value (some f); simp only [FlashRun.beats]; omega
  | expires early =>
    have h1 := writeBeats_length 0x01 job.command job.value none
    have h2 := PollRun.beats_length pad job.pollAddr h (by decide)
    simp only [FlashRun.beats, List.length_append]
    omega
  | verified early g v =>
    have h1 := writeBeats_length 0x01 job.command job.value none
    have h2 := PollRun.beats_length pad job.pollAddr h.1 (by decide)
    have h3 := Reading.tested_length pad 0x00 0x04 h.2
    simp only [FlashRun.beats, List.length_append]
    omega

/-- The beats of a flashTest (R210). -/
theorem TestRun.beats_length (pad : Byte) {t : TestRun} {timeout : Nat} (h : t.possible timeout) :
    (t.beats pad).length ≤ 200000 := by
  have h1 := FlashRun.beats_length pad h.1
  rw [TestRun.beats, List.length_append]
  split
  · have h2 := PollRun.beats_length pad 0x0A (h.2 ‹_›) (by decide)
    split <;> simp only [List.length_append, List.length_cons, List.length_nil] <;> omega
  · simp only [List.length_nil]
    omega

/-- The beats of a softwareReset (R217). -/
theorem ResetRun.beats_length (pad : Byte) {r : ResetRun} {timeout : Nat} (h : r.possible timeout) :
    (r.beats pad).length ≤ 200000 := by
  cases r with
  | commandFails f => have := writeBeats_length 0x01 0x8A 0x80 (some f); simp only [ResetRun.beats]; omega
  | polled wait =>
    have h1 := writeBeats_length 0x01 0x8A 0x80 none
    have h2 := PollRun.beats_length pad 0x0A h (by decide)
    simp only [ResetRun.beats, List.length_append]
    omega

/-- The beats of a closing select (R186, R219). -/
theorem courtesyBeats_length (c : Option Nat) : (courtesyBeats c).length ≤ 7 := by
  cases c <;> simp [courtesyBeats, frameBeats, frameFailsBeats]; omega

/-- The beats of exitAutoMode up to its backup (R219). -/
theorem modeExitBeats_length (pad : Byte) (m : Answer) (clear : Option (Bool × Nat)) :
    (modeExitBeats pad m clear).length ≤ 40 := by
  have h1 := writeBeats_length 0x01 0x88 0x00 clear
  have h2 := writeBeats_length 0x00 0x83 0x02 none
  simp only [modeExitBeats, frameBeats, Answer.bytes, List.length_append, List.length_map, List.length_cons,
    List.length_nil]
  omega

/-- The beats of a spell that fails (R170). -/
theorem spellFailsBeats_length {j k : Nat} (hj : j ≤ 2) : (spellFailsBeats j k).length ≤ 15 := by
  obtain rfl | rfl | rfl : j = 0 ∨ j = 1 ∨ j = 2 := by omega
  all_goals simp [spellFailsBeats, frameBeats, frameFailsBeats]; omega

/-- The beats of a setUartAutoStart (R203). -/
theorem ArmRun.beats_length {r : ArmRun} (h : r.possible) : r.beats.length ≤ 40 := by
  have hs : spellBeats.length = 15 := rfl
  cases r with
  | spellFails j k => have := spellFailsBeats_length (k := k) h.1; simp only [ArmRun.beats]; omega
  | commandFails place =>
    have := writeBeats_length 0x01 0x88 0x03 (some place)
    simp only [ArmRun.beats, List.length_append, List.length_cons, List.length_nil]
    omega
  | armed =>
    have := writeBeats_length 0x01 0x88 0x03 none
    simp only [ArmRun.beats, List.length_append, List.length_cons, List.length_nil]
    omega

/-- The beats of fullReset from its spell on (R224). -/
theorem rebootBeats_length (pad : Byte) {t : TestRun} {r : ResetRun} {timeout : Nat} (ht : t.possible timeout)
    (hr : r.possible timeout) : (rebootBeats pad t r).length ≤ 500000 := by
  have h1 := t.beats_length pad ht
  have h2 := r.beats_length pad hr
  have h3 : spellBeats.length = 15 := rfl
  simp only [rebootBeats, List.length_append]
  split <;> split <;> simp <;> omega

/-! ## Whole requests -/

/-- The draws ahead do not matter to what beats leave. -/
theorem State.along_script (s : State) (script : List Draw) (bs : List Beat) :
    ({ s with script := script } : State).along bs = { s.along bs with script := script } := by
  induction bs generalizing s with
  | nil => rfl
  | cons b bs ih =>
    rw [State.along_cons, State.along_cons, ← ih]
    cases b <;> rfl

/-- The acceptance of a request does not matter to what beats leave (R33). -/
theorem State.along_accept (s : State) (q : Word) (todo : List Act) (bs : List Beat) :
    (s.accept q todo).along bs = (s.along bs).accept q todo := by
  induction bs generalizing s with
  | nil => rfl
  | cons b bs ih =>
    rw [State.along_cons, State.along_cons, ← ih]
    cases b <;> rfl

/-- An accepted operation in a state that follows beats is left alone. -/
theorem State.Follows.alone {s : State} {bs : List Beat} {rest : List Draw} (h : s.Follows bs rest) (q : Word)
    (todo : List Act) : (s.accept q todo).Alone := ⟨h.isOpen, h.meddle, h.held, h.rx, h.room⟩

/-- A request whose beats lead, whatever state accepts it, to an operation with nothing left to do completes with its Pass
report (R34, R263). -/
theorem State.completes_pass {s : State} {i : Instr} {beats : List Beat} {todo : List Act} {rep : Report} {ftWarn : Bool}
    {op : BitVec 4} (hq : opField (encode i) = op) (hx : exec i s = .next (s.request (encode i) todo)) (hl : beats.length + 1 ≤ tickFuel)
    (hr : rep.result = true)
    (h : ∀ u : State, u.Alone → u.params = s.params → u.stream = s.stream →
      ∃ r, Leads u beats ⟨op, todo, [], 0#16, [], none, false⟩ r ∧ r.todo = [] ∧ passReport r = rep ∧
        reportedFtWarn r = ftWarn) : s.Completes i beats rep ftWarn := by
  subst hq
  unfold State.Completes
  simp only [hr, if_true]
  intro rest hf
  obtain ⟨⟨op', todo', buf, v, ws, id, ftw⟩, hlead, ht, hp, hw⟩ := h (s.accept (encode i) todo) (hf.alone _ _) rfl rfl
  simp only at ht
  subst ht
  have ha := (hf.alone (encode i) todo).along beats
  have h2 : BusyRun 1 (((s.accept (encode i) todo).along beats).going (Draw.quiet :: rest) ⟨op', [], buf, v, ws, id, ftw⟩)
      ((State.along { s with script := rest } (beats ++ [Beat.quiet])).reports (encode i) rep ftWarn) := by
    refine .step rfl ?_
    rw [State.going_tick ha (d := Draw.quiet) (Nat.zero_le 1), State.met_silent ha rfl]
    have : ∀ t : State, t.seq = some ⟨op', [], buf, v, ws, id, ftw⟩ →
        t.advance Draw.quiet = t.pass ⟨op', [], buf, v, ws, id, ftw⟩ := fun t ht => by
      unfold State.advance; rw [ht]
    rw [this _ rfl, State.pass, hp, hw, State.along_accept, State.along_append, State.along_script s rest]
    exact .refl _
  have h3 := (hlead (Draw.quiet :: rest)).trans h2
  have e : (s.accept (encode i) todo) = (s.accept (encode i) todo).going
      (beats.map Beat.draw ++ Draw.quiet :: rest) ⟨opField (encode i), todo, [], 0#16, [], none, false⟩ := by
    have := hf.script
    simp only [List.map_append, List.map_cons, List.map_nil, List.append_assoc, List.cons_append, List.nil_append] at this
    simp only [State.going, State.accept, startRun]
    rw [this]
    rfl
  rw [← e] at h3
  rw [hx]
  exact congrArg _ (State.request_run hf.idle h3 rfl hl)

/-- A request whose beats lead, whatever state accepts it, to a failure that nothing stops completes with its Fail report
(R263, R265). -/
theorem State.completes_fail {s : State} {i : Instr} {beats : List Beat} {todo : List Act} {f : Failure} {ftWarn : Bool}
    {op : BitVec 4} (hq : opField (encode i) = op) (hx : exec i s = .next (s.request (encode i) todo)) (hl : beats.length ≤ tickFuel)
    (h : ∀ u : State, u.Alone → u.params = s.params → u.stream = s.stream →
      ∃ r, Falls u beats ⟨op, todo, [], 0#16, [], none, false⟩ r f ∧ unwind r.todo = none ∧
        reportedFtWarn r = ftWarn) : s.Completes i beats f.report ftWarn := by
  have hr : f.report.result = false := by cases f <;> rfl
  have hfr : failReport f = f.report := by cases f <;> rfl
  subst hq
  unfold State.Completes
  simp only [hr, Bool.false_eq_true, if_false]
  intro rest hf
  obtain ⟨r, hfall, ht, hw⟩ := h (s.accept (encode i) todo) (hf.alone _ _) rfl rfl
  have h3 := hfall rest
  unfold State.failWith at h3
  rw [ht] at h3
  simp only [State.completeFail, hfr, hw] at h3
  rw [State.along_accept] at h3
  have e : (s.accept (encode i) todo) = (s.accept (encode i) todo).going
      (beats.map Beat.draw ++ rest) ⟨opField (encode i), todo, [], 0#16, [], none, false⟩ := by
    have := hf.script
    simp only [State.going, State.accept, startRun]
    rw [this]
  rw [← e] at h3
  rw [hx, State.along_script s rest]
  exact congrArg _ (State.request_run hf.idle h3 rfl hl)

end Sys2Proof.Machine
end

