-- ==== Sys2Proof/Laws/PerInstr.lean ====
section
/-! SUPPORT. EncodeFormat, stated once for each instruction: what the word of a well-formed instruction looks like in its
format. A request word names its operation in [3:0], and is legal exactly if it is not the reserved row's (R91, R94,
R101). A command word ends with TERM and expects a response of at most 255 bytes (R96, R100). -/

namespace Sys2Proof.Laws

/-- The operation code of a request row (R94); 0 for every other row. -/
def opCode : Instr → BitVec 4
  | .reservedOp0 _ => 0#4
  | .openStream _ _ => 1#4
  | .closeStream _ _ => 2#4
  | .sendCommand _ _ _ _ => 3#4
  | .sendCommands _ _ _ => 4#4
  | .resetSensor _ _ => 5#4
  | .readRegisterWord _ _ _ => 6#4
  | .detectIdentity _ _ => 7#4
  | .setUartAutoStart _ _ => 8#4
  | .flashBackup _ _ => 9#4
  | .flashTest _ _ => 10#4
  | .waitUntilReady _ _ _ => 11#4
  | .softwareReset _ _ => 12#4
  | .exitAutoMode _ _ => 13#4
  | .fullReset _ _ => 14#4
  | .configure _ _ => 15#4
  | .spell => 0#4
  | .winsel0 => 0#4
  | .winsel1 => 0#4
  | .wrUartCtrlOn => 0#4
  | .wrUartCtrlOff => 0#4
  | .wrGlobFlashBackup => 0#4
  | .wrGlobSwReset => 0#4
  | .wrModeExit => 0#4
  | .wrMscFlashTest => 0#4
  | .rdModeMsc => 0#4
  | .rdDiagStat1 => 0#4
  | .rdGlobCmd => 0#4
  | .rdProd0 => 0#4
  | .rdProd1 => 0#4
  | .rdProd2 => 0#4
  | .rdProd3 => 0#4
  | .rdSer0 => 0#4
  | .rdSer1 => 0#4
  | .rdSer2 => 0#4
  | .rdSer3 => 0#4
  | .writeFrame _ _ => 0#4
  | .readFrame _ => 0#4
  | .rawFrame _ _ _ => 0#4
  | .readResponse _ _ _ _ => 0#4

/-- Bits [3:0] of a request word are its operation code (R91). -/
theorem requestWord_op (hi : BitVec 24) (f : BitVec 1) (op : BitVec 4) : opField (requestWord hi f op) = op := by
  apply BitVec.eq_of_getLsbD_eq
  intro i h
  simp only [opField, requestWord, BitVec.getLsbD_extractLsb', BitVec.getLsbD_append, h, decide_true, Nat.zero_add,
    Bool.true_and, if_true]

/-- Bits [7:5] of a request word are 0 (R91). -/
theorem requestWord_rsv (hi : BitVec 24) (f : BitVec 1) (op : BitVec 4) :
    (requestWord hi f op).extractLsb' 5 3 = 0#3 := by
  apply BitVec.eq_of_getLsbD_eq
  intro i h
  simp only [requestWord, BitVec.getLsbD_extractLsb', BitVec.getLsbD_append, h]
  have h1 : ¬ (5 + i < 4) := by omega
  have h2 : ¬ (5 + i - 4 < 1) := by omega
  have h3 : 5 + i - 4 - 1 < 3 := by omega
  simp [h1, h2, h3]

/-- Bits [15:8] of a request word whose upper bits end with the byte `a` (R91). -/
theorem requestWord_a (hi : Half) (a : Byte) (f : BitVec 1) (op : BitVec 4) :
    aField (requestWord (hi ++ a) f op) = a := by
  apply BitVec.eq_of_getLsbD_eq
  intro i h
  simp only [aField, requestWord, BitVec.getLsbD_extractLsb', BitVec.getLsbD_append, h]
  have h1 : ¬ (8 + i < 4) := by omega
  have h2 : ¬ (8 + i - 4 < 1) := by omega
  have h3 : ¬ (8 + i - 4 - 1 < 3) := by omega
  have h4 : 8 + i - 4 - 1 - 3 = i := by omega
  simp [h1, h2, h3, h4, h]

/-- A request word with RSV = 0 and an operation code other than 0 and SEND_COMMANDS is legal (R101). -/
theorem requestWord_legal (hi : BitVec 24) (f : BitVec 1) {op : BitVec 4} (h0 : op ≠ 0#4) (h4 : op ≠ 4#4) :
    illegalRequest (requestWord hi f op) = false := by
  have ho := requestWord_op hi f op
  rw [opField] at ho
  simp [illegalRequest, ho, requestWord_rsv, h0, h4]

/-- The low byte of a command word is TERM (R100). -/
theorem commandWord_term (c : Command) : (commandWord c).extractLsb' 0 8 = 0x0D#8 := by
  apply BitVec.eq_of_getLsbD_eq
  intro i h
  simp only [commandWord, BitVec.getLsbD_extractLsb', BitVec.getLsbD_append, h, decide_true, Nat.zero_add,
    Bool.true_and, if_true]

/-- The format of an encoded instruction. -/
def EncodeFormat.Statement (i : Instr) : Prop :=
  i.wellFormed = true →
    match i.format with
    | .opreq => illegalRequest (encode i) = (opCode i == 0#4) ∧ (opCode i ≠ 0#4 → opField (encode i) = opCode i)
    | .cmd => (encode i).extractLsb' 0 8 = 0x0D#8
    | .rsp4 => ∃ e m l t, decodeAs .rsp4 (encode i) = .ok (.readResponse e m l t)

namespace EncodeFormat

theorem reservedOp0 (w : Word) : Statement (.reservedOp0 w) := fun h => ⟨h, fun hn => absurd rfl hn⟩

theorem openStream (hi : BitVec 24) (f : BitVec 1) : Statement (.openStream hi f) :=
  fun _ => ⟨requestWord_legal _ _ (by decide) (by decide), fun _ => requestWord_op _ _ _⟩

theorem closeStream (hi : BitVec 24) (f : BitVec 1) : Statement (.closeStream hi f) :=
  fun _ => ⟨requestWord_legal _ _ (by decide) (by decide), fun _ => requestWord_op _ _ _⟩

theorem sendCommand (len b2 b1 : Byte) (f : BitVec 1) : Statement (.sendCommand len b2 b1 f) :=
  fun _ => ⟨requestWord_legal _ _ (by decide) (by decide), fun _ => requestWord_op _ _ _⟩

theorem sendCommands (hi : Half) (n : Byte) (f : BitVec 1) : Statement (.sendCommands hi n f) := fun h => by
  have ho := requestWord_op (hi ++ n) f 4#4
  have ha := requestWord_a hi n f 4#4
  rw [opField] at ho
  rw [aField] at ha
  have hc : legalCount n = true := h
  refine ⟨?_, fun _ => requestWord_op _ _ _⟩
  simp [illegalRequest, encode, ho, ha, requestWord_rsv, opCode, hc]

theorem resetSensor (hi : BitVec 24) (f : BitVec 1) : Statement (.resetSensor hi f) :=
  fun _ => ⟨requestWord_legal _ _ (by decide) (by decide), fun _ => requestWord_op _ _ _⟩

theorem readRegisterWord (hi : Half) (address : Byte) (window : BitVec 1) : Statement (.readRegisterWord hi address window) :=
  fun _ => ⟨requestWord_legal _ _ (by decide) (by decide), fun _ => requestWord_op _ _ _⟩

theorem detectIdentity (hi : BitVec 24) (f : BitVec 1) : Statement (.detectIdentity hi f) :=
  fun _ => ⟨requestWord_legal _ _ (by decide) (by decide), fun _ => requestWord_op _ _ _⟩

theorem setUartAutoStart (hi : BitVec 24) (f : BitVec 1) : Statement (.setUartAutoStart hi f) :=
  fun _ => ⟨requestWord_legal _ _ (by decide) (by decide), fun _ => requestWord_op _ _ _⟩

theorem flashBackup (hi : BitVec 24) (f : BitVec 1) : Statement (.flashBackup hi f) :=
  fun _ => ⟨requestWord_legal _ _ (by decide) (by decide), fun _ => requestWord_op _ _ _⟩

theorem flashTest (hi : BitVec 24) (f : BitVec 1) : Statement (.flashTest hi f) :=
  fun _ => ⟨requestWord_legal _ _ (by decide) (by decide), fun _ => requestWord_op _ _ _⟩

theorem waitUntilReady (timeout : Half) (lo : Byte) (f : BitVec 1) : Statement (.waitUntilReady timeout lo f) :=
  fun _ => ⟨requestWord_legal _ _ (by decide) (by decide), fun _ => requestWord_op _ _ _⟩

theorem softwareReset (hi : BitVec 24) (f : BitVec 1) : Statement (.softwareReset hi f) :=
  fun _ => ⟨requestWord_legal _ _ (by decide) (by decide), fun _ => requestWord_op _ _ _⟩

theorem exitAutoMode (hi : BitVec 24) (persist : BitVec 1) : Statement (.exitAutoMode hi persist) :=
  fun _ => ⟨requestWord_legal _ _ (by decide) (by decide), fun _ => requestWord_op _ _ _⟩

theorem fullReset (hi : BitVec 24) (persist : BitVec 1) : Statement (.fullReset hi persist) :=
  fun _ => ⟨requestWord_legal _ _ (by decide) (by decide), fun _ => requestWord_op _ _ _⟩

theorem configure (hi : BitVec 24) (f : BitVec 1) : Statement (.configure hi f) :=
  fun _ => ⟨requestWord_legal _ _ (by decide) (by decide), fun _ => requestWord_op _ _ _⟩

theorem spell : Statement .spell := fun _ => commandWord_term _

theorem winsel0 : Statement .winsel0 := fun _ => commandWord_term _

theorem winsel1 : Statement .winsel1 := fun _ => commandWord_term _

theorem wrUartCtrlOn : Statement .wrUartCtrlOn := fun _ => commandWord_term _

theorem wrUartCtrlOff : Statement .wrUartCtrlOff := fun _ => commandWord_term _

theorem wrGlobFlashBackup : Statement .wrGlobFlashBackup := fun _ => commandWord_term _

theorem wrGlobSwReset : Statement .wrGlobSwReset := fun _ => commandWord_term _

theorem wrModeExit : Statement .wrModeExit := fun _ => commandWord_term _

theorem wrMscFlashTest : Statement .wrMscFlashTest := fun _ => commandWord_term _

theorem rdModeMsc : Statement .rdModeMsc := fun _ => commandWord_term _

theorem rdDiagStat1 : Statement .rdDiagStat1 := fun _ => commandWord_term _

theorem rdGlobCmd : Statement .rdGlobCmd := fun _ => commandWord_term _

theorem rdProd0 : Statement .rdProd0 := fun _ => commandWord_term _

theorem rdProd1 : Statement .rdProd1 := fun _ => commandWord_term _

theorem rdProd2 : Statement .rdProd2 := fun _ => commandWord_term _

theorem rdProd3 : Statement .rdProd3 := fun _ => commandWord_term _

theorem rdSer0 : Statement .rdSer0 := fun _ => commandWord_term _

theorem rdSer1 : Statement .rdSer1 := fun _ => commandWord_term _

theorem rdSer2 : Statement .rdSer2 := fun _ => commandWord_term _

theorem rdSer3 : Statement .rdSer3 := fun _ => commandWord_term _

theorem writeFrame (a v : Byte) : Statement (.writeFrame a v) := fun _ => commandWord_term _

theorem readFrame (a : Byte) : Statement (.readFrame a) := fun _ => commandWord_term _

theorem rawFrame (len b1 b2 : Byte) : Statement (.rawFrame len b1 b2) := fun _ => commandWord_term _

theorem readResponse (e m l t : Byte) : Statement (.readResponse e m l t) := fun _ => ⟨_, _, _, _, rfl⟩

end EncodeFormat

end Sys2Proof.Laws
end

