-- ==== Sys2Proof/Machine/Assembler.lean ====
section
/-! DEFINITION. The textual syntax of requests (R106) and of the pseudo-instructions (R107): from a line of characters to
a `Request`, whose word is `Request.word`. -/

namespace Sys2Proof.Machine

/-! ## Tokens -/

/-- The token whose characters were gathered in reverse, before the tokens that follow it. -/
def consToken (gathered : List Char) (tokens : List (List Char)) : List (List Char) :=
  if gathered = [] then tokens else gathered.reverse :: tokens

/-- The tokens of a line: words, and commas, each comma a token of its own. `;` starts a comment (R106). -/
def tokenize : List Char → List Char → List (List Char)
  | gathered, [] => consToken gathered []
  | gathered, c :: cs =>
    if c = ';' then consToken gathered []
    else if c = ' ' ∨ c = '\t' then consToken gathered (tokenize [] cs)
    else if c = ',' then consToken gathered ([','] :: tokenize [] cs)
    else tokenize (c :: gathered) cs

/-! ## Numbers -/

/-- The value of a digit. -/
def digitValue (c : Char) : Option Nat :=
  let n := c.toNat
  if 48 ≤ n ∧ n ≤ 57 then some (n - 48)
  else if 97 ≤ n ∧ n ≤ 102 then some (n - 87)
  else if 65 ≤ n ∧ n ≤ 70 then some (n - 55)
  else none

/-- Digits of a base after the value read so far. -/
def digitsValue (base : Nat) : Nat → List Char → Option Nat
  | n, [] => some n
  | n, c :: cs =>
    match digitValue c with
    | some d => if d < base then digitsValue base (base * n + d) cs else none
    | none => none

/-- A number in C syntax (R106): `0x` hexadecimal, a leading `0` octal, else decimal. -/
def parseNumber : List Char → Option Nat
  | [] => none
  | '0' :: 'x' :: c :: cs => digitsValue 16 0 (c :: cs)
  | '0' :: 'X' :: c :: cs => digitsValue 16 0 (c :: cs)
  | '0' :: cs => digitsValue 8 0 cs
  | c :: cs => digitsValue 10 0 (c :: cs)

/-- A number that fits in `n` bits. -/
def parseBits (n : Nat) (t : List Char) : Option (BitVec n) :=
  match parseNumber t with
  | some v => if v < 2 ^ n then some (BitVec.ofNat n v) else none
  | none => none

/-- `w0` or `w1` (R106). -/
def parseWindow (t : List Char) : Option (BitVec 1) :=
  if t = ['w', '0'] then some 0#1 else if t = ['w', '1'] then some 1#1 else none

/-! ## Lines -/

/-- A word of the syntax as the characters of a token. -/
def tokenIs (t : List Char) (word : String) : Bool := t == word.toList

/-- `persist` or `nopersist` (R106). -/
def parsePersist (t : List Char) : Option Bool :=
  if tokenIs t "persist" then some true else if tokenIs t "nopersist" then some false else none

/-- The request of a line's tokens: the rows of R106 and of R107. `none` where no row matches. -/
def parseTokens : List (List Char) → Option Request
  | [w] =>
    if tokenIs w "open" then some .openReq
    else if tokenIs w "close" then some .closeReq
    else if tokenIs w "reset_sensor" then some .resetSensor
    else if tokenIs w "detect_identity" then some .detectIdentity
    else if tokenIs w "set_uart_auto_start" then some .setUartAutoStart
    else if tokenIs w "flash_backup" then some .flashBackup
    else if tokenIs w "flash_test" then some .flashTest
    else if tokenIs w "software_reset" then some .softwareReset
    else if tokenIs w "full_reset" then some (.fullReset none)
    else if tokenIs w "configure" then some .configure
    else if tokenIs w "spell" then some .spell
    else none
  | [w, a] =>
    if tokenIs w "sendm" then (parseBits 8 a).map .sendm
    else if tokenIs w "wait_until_ready" then (parseBits 16 a).map .waitUntilReady
    else if tokenIs w "exit_auto_mode" then (parsePersist a).map .exitAutoMode
    else if tokenIs w "full_reset" then (parsePersist a).map (fun p => .fullReset (some p))
    else if tokenIs w "select_window" then (parseBits 8 a).map .selectWindow
    else if tokenIs w "read_raw" then (parseBits 8 a).map .readRaw
    else none
  | [w, a, [','], b] =>
    if tokenIs w "read_word" then
      (parseBits 8 a).bind fun addr => (parseWindow b).map fun window => .readWord addr window
    else if tokenIs w "write_reg" then
      (parseBits 8 a).bind fun addr => (parseBits 8 b).map fun v => .writeReg addr v
    else none
  | [w, a, [','], b, [','], c] =>
    if tokenIs w "send" then
      (parseBits 8 a).bind fun len => (parseBits 8 b).bind fun b1 => (parseBits 8 c).map fun b2 => .send len b1 b2
    else none
  | _ => none

/-- What a line of a program is (R106). -/
inductive Line where
  /-- Nothing but spaces and a comment. -/
  | blank
  | request (r : Request)
  /-- Not in the syntax. -/
  | malformed
deriving DecidableEq, Repr

/-- A line of the textual syntax (R106, R107). -/
def parseLine (line : List Char) : Line :=
  match tokenize [] line with
  | [] => .blank
  | ts =>
    match parseTokens ts with
    | some r => .request r
    | none => .malformed

/-- The words of a program, one for each request line in order; the host writes each to OPREQ after the one before has
completed (R106). `none` where a line is malformed. -/
def assemble : List (List Char) → Option (List Word)
  | [] => some []
  | l :: ls =>
    match parseLine l with
    | .blank => assemble ls
    | .request r => (assemble ls).map (r.word :: ·)
    | .malformed => none

end Sys2Proof.Machine
end

