-- ==== Sys2Proof/Tests/Slice0.lean ====
section
/-! SUPPORT. Tests: ill-formed terms, words written out from the spec's encodings, one step of each instruction against the
vectors of 95_test_vectors.md, and for each statement a witness of its hypotheses. -/

namespace Sys2Proof.Machine

-- One theorem at a time: the kernel evaluations below, all at once, ask for more threads than the sandbox gives.
set_option Elab.async false

/-! ## WellFormed refuses -/

theorem test_wellFormed_refuses_a_legal_word_as_reserved : Instr.wellFormed (.reservedOp0 0x00000A16#32) = false := by decide
theorem test_wellFormed_refuses_nine_commands : Instr.wellFormed (.sendCommands 0 9 0) = false := by decide
theorem test_wellFormed_refuses_a_named_write : Instr.wellFormed (.writeFrame 0xFE 0x01) = false := by decide
theorem test_wellFormed_refuses_a_named_read : Instr.wellFormed (.readFrame 0x0A) = false := by decide
theorem test_wellFormed_refuses_a_raw_write : Instr.wellFormed (.rawFrame 0x00 0x12 0x34) = false := by decide
theorem test_wellFormed_refuses_a_raw_read : Instr.wellFormed (.rawFrame 0x04 0x12 0x00) = false := by decide

/-! ## Words of the spec's tables and what they decode to -/

/-- Illegal words: 95_test_vectors.md section 2.1. -/
theorem test_decode_reserved :
    [0x00000000#32, 0x00000020#32, 0x000000F6#32, 0x00000904#32].map decodeRequest =
      [.reservedOp0 0x00000000#32, .reservedOp0 0x00000020#32, .reservedOp0 0x000000F6#32, .reservedOp0 0x00000904#32] := by
  decide
/-- The words of R106 for the requests without operands. -/
theorem test_decode_plain_requests :
    [0x00000001#32, 0x00000002#32, 0x00000005#32, 0x00000007#32, 0x00000008#32, 0x00000009#32, 0x0000000A#32, 0x0000000C#32,
      0x0000000F#32].map decodeRequest =
    [.openStream 0 0, .closeStream 0 0, .resetSensor 0 0, .detectIdentity 0 0, .setUartAutoStart 0 0, .flashBackup 0 0,
      .flashTest 0 0, .softwareReset 0 0, .configure 0 0] := by decide
/-- The rows with operands of 95_test_vectors.md section 2.1. -/
theorem test_decode_operands :
    [0x04000A03#32, 0x0001FE03#32, 0x00000804#32, 0x00000004#32, 0x00000A16#32, 0x1B58000B#32, 0xFFFF000B#32, 0x0000001D#32,
      0x0000000D#32, 0x0000001E#32, 0x0000000E#32].map decodeRequest =
    [.sendCommand 4 0 0x0A 0, .sendCommand 0 1 0xFE 0, .sendCommands 0 8 0, .sendCommands 0 0 0, .readRegisterWord 0 0x0A 1,
      .waitUntilReady 7000#16 0 0, .waitUntilReady 65535#16 0 0, .exitAutoMode 0 1, .exitAutoMode 0 0, .fullReset 0 1,
      .fullReset 0 0] := by decide
/-- Ignored fields are kept and do not change the operation (R92). -/
theorem test_decode_ignored_fields :
    [0x12345617#32, 0x0000FF02#32, 0xFFFFFF06#32].map decodeRequest =
      [.detectIdentity 0x123456 1, .closeStream 0x0000FF 0, .readRegisterWord 0xFFFF 0xFF 0] := by decide
/-- The command words of R100: LEN, byte 1, byte 2, TERM. -/
theorem test_decode_write_frames :
    [0x00FFFF0D#32, 0x00FE000D#32, 0x00FE010D#32, 0x0088030D#32, 0x0088000D#32, 0x008A080D#32, 0x008A800D#32, 0x0083020D#32,
      0x0083080D#32, 0x0080550D#32].map (decodeAs .cmd) =
    ([.spell, .winsel0, .winsel1, .wrUartCtrlOn, .wrUartCtrlOff, .wrGlobFlashBackup, .wrGlobSwReset, .wrModeExit,
      .wrMscFlashTest, .writeFrame 0x80 0x55] : List Instr).map .ok := by decide
theorem test_decode_read_frames :
    [0x0402000D#32, 0x0404000D#32, 0x040A000D#32, 0x046A000D#32, 0x046C000D#32, 0x046E000D#32, 0x0470000D#32, 0x0474000D#32,
      0x0476000D#32, 0x0478000D#32, 0x047A000D#32, 0x0480000D#32, 0x0312340D#32].map (decodeAs .cmd) =
    ([.rdModeMsc, .rdDiagStat1, .rdGlobCmd, .rdProd0, .rdProd1, .rdProd2, .rdProd3, .rdSer0, .rdSer1, .rdSer2, .rdSer3,
      .readFrame 0x80, .rawFrame 0x03 0x12 0x34] : List Instr).map .ok := by decide
theorem test_decode_refuses_a_word_without_terminator : decodeAs .cmd 0x00FE010A#32 = .error .noTerminator := by decide
/-- A response in arrival order (R99), and one byte too few. -/
theorem test_decode_response :
    decodeBytes .rsp4 [0x0A, 0x12, 0x34, 0x0D] = .ok (.readResponse 0x0A 0x12 0x34 0x0D) ∧
    decodeAs .rsp4 0x0A12340D#32 = .ok (.readResponse 0x0A 0x12 0x34 0x0D) ∧
    decodeBytes .rsp4 [0x0A, 0x12, 0x34] = .error .tooShort := by decide
/-- A request's bytes as the host stores them, least significant first (R19). -/
theorem test_decode_request_bytes : decodeBytes .opreq [0x16, 0x0A, 0x00, 0x00] = .ok (.readRegisterWord 0 0x0A 1) := by decide
/-- The same 32 bits as a request and as a command word: read_word 0xFE, w1 with D and L ignored, and a bare table word. -/
theorem test_decode_table_words :
    [0x0088030D, 0x00000A16, 0x0000000D, 0x046A000D].map (decodeTableWord 32) =
      [some .wrUartCtrlOn, some (.readRegisterWord 0 0x0A 1), some (.exitAutoMode 0 0), some .rdProd0] := by decide

/-! ## The textual syntax (R106 to R108) -/

theorem test_assemble_r106 :
    (["send 4, 0x0A, 0x00", "sendm 2 ; two commands", "read_word 0x0A, w1", "; a comment", "wait_until_ready 7000",
      "exit_auto_mode persist", "full_reset nopersist"].map String.toList |> assemble) =
    some [0x04000A03#32, 0x00000204#32, 0x00000A16#32, 0x1B58000B#32, 0x0000001D#32, 0x0000000E#32] := by decide +kernel
theorem test_assemble_r107 :
    (["select_window 1", "write_reg 0x8A, 0x80", "read_raw 0x04", "spell", "full_reset"].map String.toList |> assemble) =
    some [0x0001FE03#32, 0x00808A03#32, 0x04000403#32, 0x00FFFF03#32, 0x0000001E#32] := by decide +kernel
theorem test_assemble_refuses : (["read_word 0x0A"].map String.toList |> assemble) = none := by decide +kernel

/-! ## States of the tests -/

/-- `n` quiet draws. -/
def quietDraws (n : Nat) : List Draw := List.replicate n Draw.quiet

/-- The block after reset, with a script of draws. -/
def closedState (script : List Draw) : State := { State.reset with script := script }

/-- The block after reset and OPEN, with bytes in its FIFO and a script of draws. -/
def openState (rx : List Byte) (script : List Draw) : State :=
  { State.reset with stream := { Stream.reset with isOpen := true }, rx := rx, script := script }

/-- An operation runs and has the positions `todo` ahead. -/
def runningState (todo : List Act) (buf rx : List Byte) (script : List Draw) : State :=
  { openState rx script with
    lastOp := 6#4
    seq := some { startRun 6#4 todo with buf := buf } }

/-- What an instruction leaves: the TX trace, STATUS, FAIL_ADDR, and the time. -/
def seen (i : Instr) (s : State) : List Byte × Word × Word × Nat :=
  match exec i s with
  | .next t => (t.tx, t.statusWord, t.failAddrWord, t.now)
  | _ => ([], 0#32, 0#32, 0)

/-- A register word the host reads after an instruction. -/
def readAfter (i : Instr) (s : State) (index : BitVec 10) : Word :=
  match exec i s with
  | .next t => t.hostRead index
  | _ => 0#32

/-! ## Requests against the vectors of 95_test_vectors.md -/

/-- Section 2.1, refusals. -/
theorem test_reserved_closed : seen (.reservedOp0 0x00000020#32) State.reset = ([], 0x00005902#32, 0#32, 0) := by decide +kernel
theorem test_reserved_open : seen (.reservedOp0 0x00000020#32) (openState [] []) = ([], 0x00005912#32, 0#32, 0) := by decide +kernel
/-- TR-1 and TR-2. -/
theorem test_open : seen (.openStream 0 0) (closedState (quietDraws 2)) = ([], 0x00010016#32, 0#32, 0) := by decide +kernel
theorem test_open_denied :
    seen (.openStream 0 0) (closedState [Draw.opening .accessDenied]) = ([], 0x00011202#32, 0#32, 0) := by decide +kernel
/-- TR-5 and TR-6. -/
theorem test_close_open : seen (.closeStream 0 0) (openState [] (quietDraws 2)) = ([], 0x00020006#32, 0#32, 0) := by decide +kernel
theorem test_close_closed : seen (.closeStream 0 0) (closedState (quietDraws 2)) = ([], 0x00020006#32, 0#32, 0) := by decide +kernel
/-- TR-7: the word at 0x800, and the frame. -/
theorem test_sendCommand_frame :
    seen (.sendCommand 4 0 0x0A 0) (openState [0x0A, 0x04, 0x00, 0x0D] (quietDraws 10)) =
      ([0x0A, 0x00, 0x0D], 0x00030016#32, 0#32, 0) := by decide +kernel
theorem test_sendCommand_response :
    readAfter (.sendCommand 4 0 0x0A 0) (openState [0x0A, 0x04, 0x00, 0x0D] (quietDraws 10)) 0x200 = 0x0D00040A#32 := by
  decide +kernel
/-- TR-13 and TR-17. -/
theorem test_sendCommands :
    seen (.sendCommands 0 2 0) { openState [0x0A, 0x00, 0x00, 0x0D] (quietDraws 15) with
        cmds := ((Vector.replicate 8 0#32).set 0 0x00FE01).set 1 0x040A00 } =
      ([0xFE, 0x01, 0x0D, 0x0A, 0x00, 0x0D], 0x00040016#32, 0#32, 0) := by decide +kernel
theorem test_sendCommands_nine : seen (.sendCommands 0 9 0) (openState [] []) = ([], 0x00045912#32, 0#32, 0) := by decide +kernel
/-- RS-1 and RS-2. -/
theorem test_resetSensor :
    seen (.resetSensor 0 0) (openState [] (quietDraws 16)) =
      ([0xFF, 0xFF, 0x0D, 0xFF, 0xFF, 0x0D, 0xFF, 0xFF, 0x0D], 0x00050016#32, 0#32, 0) := by decide +kernel
theorem test_resetSensor_write_fails :
    seen (.resetSensor 0 0) (openState [] (quietDraws 6 ++ [Draw.ioFailure])) =
      ([0xFF, 0xFF, 0x0D], 0x00051612#32, 0x1FF#32, 0) := by decide +kernel
/-- RW-4: wrong echo and terminator; RW-6: no answer. -/
theorem test_readRegisterWord_value :
    readAfter (.readRegisterWord 0 0x0A 1) (openState [0x55, 0x12, 0x34, 0x00] (quietDraws 16)) 0x02 = 0x1234#32 := by
  decide +kernel
theorem test_readRegisterWord_timeout :
    seen (.readRegisterWord 0 0x0A 1) (openState [] (quietDraws 10 ++ [Draw.after 3000])) =
      ([0xFE, 0x01, 0x0D, 0x0A, 0x00, 0x0D], 0x00061412#32, 0x10A#32, 3000) := by decide +kernel
/-- ID-1: the answers of section 2.4. -/
def identityAnswers : List Byte :=
  [0x6A, 0x33, 0x41, 0x0D, 0x6C, 0x32, 0x34, 0x0D, 0x6E, 0x44, 0x56, 0x0D, 0x70, 0x30, 0x31, 0x0D] ++
  [0x74, 0x32, 0x31, 0x0D, 0x76, 0x34, 0x33, 0x0D, 0x78, 0x36, 0x35, 0x0D, 0x7A, 0x38, 0x37, 0x0D]
theorem test_detectIdentity_lengths :
    readAfter (.detectIdentity 0 0) (openState identityAnswers (quietDraws 137)) 0x10 = 0x00080908#32 := by decide +kernel
theorem test_detectIdentity_strings :
    [0x14#10, 0x15#10, 0x18#10, 0x19#10, 0x1A#10, 0x1C#10, 0x1D#10].map
      (readAfter (.detectIdentity 0 0) (openState identityAnswers (quietDraws 137))) =
    [0x32343341#32, 0x30314456#32, 0x35412D4D#32, 0x52563234#32, 0x00000031#32, 0x34333231#32, 0x38373635#32] := by
  decide +kernel
/-- SU-1 and SU-4. -/
theorem test_setUartAutoStart :
    seen (.setUartAutoStart 0 0) (openState [] (quietDraws 27)) =
      ([0xFF, 0xFF, 0x0D, 0xFF, 0xFF, 0x0D, 0xFF, 0xFF, 0x0D, 0xFE, 0x01, 0x0D, 0x88, 0x03, 0x0D], 0x00080016#32, 0#32, 100) := by
  decide +kernel
theorem test_setUartAutoStart_write_fails :
    seen (.setUartAutoStart 0 0) (openState [] (quietDraws 22 ++ [Draw.ioFailure])) =
      ([0xFF, 0xFF, 0x0D, 0xFF, 0xFF, 0x0D, 0xFF, 0xFF, 0x0D, 0xFE, 0x01, 0x0D], 0x00081612#32, 0x188#32, 100) := by
  decide +kernel
/-- FB-1 and S6. -/
theorem test_flashBackup :
    seen (.flashBackup 0 0)
      (openState [0x0A, 0x00, 0x08, 0x0D, 0x0A, 0x00, 0x00, 0x0D, 0x04, 0x00, 0x00, 0x0D] (quietDraws 63)) =
      ([0xFE, 0x01, 0x0D, 0x8A, 0x08, 0x0D, 0xFE, 0x01, 0x0D, 0x0A, 0x00, 0x0D, 0xFE, 0x01, 0x0D, 0x0A, 0x00, 0x0D, 0xFE, 0x00,
        0x0D, 0x04, 0x00, 0x0D], 0x00090016#32, 0#32, 100) := by decide +kernel
theorem test_flashBackup_verify_fails :
    seen (.flashBackup 0 0) (openState [0x0A, 0x00, 0x00, 0x0D, 0x04, 0x00, 0x01, 0x0D] (quietDraws 44)) =
      ([0xFE, 0x01, 0x0D, 0x8A, 0x08, 0x0D, 0xFE, 0x01, 0x0D, 0x0A, 0x00, 0x0D, 0xFE, 0x00, 0x0D, 0x04, 0x00, 0x0D],
        0x00093012#32, 0#32, 0) := by decide +kernel
/-- FT-1 and FT-2. -/
theorem test_flashTest :
    seen (.flashTest 0 0)
      (openState [0x02, 0x00, 0x00, 0x0D, 0x04, 0x00, 0x00, 0x0D, 0x0A, 0x00, 0x00, 0x0D] (quietDraws 65)) =
      ([0xFE, 0x01, 0x0D, 0x83, 0x08, 0x0D, 0xFE, 0x01, 0x0D, 0x02, 0x00, 0x0D, 0xFE, 0x00, 0x0D, 0x04, 0x00, 0x0D, 0xFE, 0x01,
        0x0D, 0x0A, 0x00, 0x0D], 0x000A0016#32, 0#32, 0) := by decide +kernel
theorem test_flashTest_verify_fails :
    seen (.flashTest 0 0) (openState [0x02, 0x00, 0x00, 0x0D, 0x04, 0x00, 0x04, 0x0D] (quietDraws 44)) =
      ([0xFE, 0x01, 0x0D, 0x83, 0x08, 0x0D, 0xFE, 0x01, 0x0D, 0x02, 0x00, 0x0D, 0xFE, 0x00, 0x0D, 0x04, 0x00, 0x0D],
        0x000A3012#32, 0#32, 0) := by decide +kernel
/-- WR-5 and WR-6. -/
theorem test_waitUntilReady_expires :
    seen (.waitUntilReady 50 0 0) (openState [0x0A, 0x84, 0x08, 0x0D] (quietDraws 20)) =
      ([0xFE, 0x01, 0x0D, 0x0A, 0x00, 0x0D], 0x000B2012#32, 0#32, 50) := by decide +kernel
theorem test_waitUntilReady_ready :
    seen (.waitUntilReady 50 0 0) (openState [0x0A, 0x00, 0x88, 0x0D] (quietDraws 19)) =
      ([0xFE, 0x01, 0x0D, 0x0A, 0x00, 0x0D], 0x000B0016#32, 0#32, 0) := by decide +kernel
/-- SW-1 and SW-4. -/
theorem test_softwareReset :
    seen (.softwareReset 0 0) (openState [0x0A, 0x04, 0x00, 0x0D, 0x0A, 0x00, 0x00, 0x0D] (quietDraws 47)) =
      ([0xFE, 0x01, 0x0D, 0x8A, 0x80, 0x0D, 0xFE, 0x01, 0x0D, 0x0A, 0x00, 0x0D, 0xFE, 0x01, 0x0D, 0x0A, 0x00, 0x0D],
        0x000C0016#32, 0#32, 50) := by decide +kernel
theorem test_softwareReset_write_fails :
    seen (.softwareReset 0 0) (openState [] (quietDraws 6 ++ [Draw.ioFailure])) =
      ([0xFE, 0x01, 0x0D], 0x000C1612#32, 0x18A#32, 0) := by decide +kernel
/-- EX-1 and EX-5. -/
theorem test_exitAutoMode :
    seen (.exitAutoMode 0 0) (openState [0x02, 0x04, 0x00, 0x0D] (quietDraws 40)) =
      ([0xFE, 0x00, 0x0D, 0x83, 0x02, 0x0D, 0x02, 0x00, 0x0D, 0xFE, 0x01, 0x0D, 0x88, 0x00, 0x0D, 0xFE, 0x00, 0x0D],
        0x000D0016#32, 0#32, 50) := by decide +kernel
theorem test_exitAutoMode_not_confirmed :
    seen (.exitAutoMode 0 0) (openState [0x02, 0xFB, 0xFF, 0x0D] (quietDraws 22)) =
      ([0xFE, 0x00, 0x0D, 0x83, 0x02, 0x0D, 0x02, 0x00, 0x0D], 0x000D4012#32, 0#32, 50) := by decide +kernel
/-- S8, and S9 without persist. -/
theorem test_fullReset :
    seen (.fullReset 0 0) (openState [0x02, 0x00, 0x00, 0x0D, 0x04, 0x00, 0x00, 0x0D, 0x0A, 0x00, 0x00, 0x0D, 0x0A, 0x00, 0x00,
        0x0D] (quietDraws 117)) =
      ([0xFE, 0x00, 0x0D, 0xFF, 0xFF, 0x0D, 0xFF, 0xFF, 0x0D, 0xFF, 0xFF, 0x0D, 0xFE, 0x01, 0x0D, 0x83, 0x08, 0x0D, 0xFE, 0x01,
        0x0D, 0x02, 0x00, 0x0D, 0xFE, 0x00, 0x0D, 0x04, 0x00, 0x0D, 0xFE, 0x01, 0x0D, 0x0A, 0x00, 0x0D, 0xFE, 0x01, 0x0D, 0x8A,
        0x80, 0x0D, 0xFE, 0x01, 0x0D, 0x0A, 0x00, 0x0D], 0x000E0016#32, 0#32, 900) := by decide +kernel
theorem test_fullReset_flash_test_fails :
    (seen (.fullReset 0 0) (openState [0x02, 0x00, 0x00, 0x0D, 0x04, 0x00, 0x04, 0x0D, 0x0A, 0x00, 0x00, 0x0D]
      (quietDraws 96))).2 = (0x000E0036#32, 0#32, 900) := by decide +kernel
/-- CF-2 and P6. -/
theorem test_configure_verify_fails :
    seen (.configure 0 0) (openState [0x0A, 0x00, 0x00, 0x0D, 0x04, 0x00, 0x01, 0x0D] (quietDraws 70)) =
      ([0xFF, 0xFF, 0x0D, 0xFF, 0xFF, 0x0D, 0xFF, 0xFF, 0x0D, 0xFE, 0x01, 0x0D, 0x88, 0x03, 0x0D, 0xFE, 0x01, 0x0D, 0x8A, 0x08,
        0x0D, 0xFE, 0x01, 0x0D, 0x0A, 0x00, 0x0D, 0xFE, 0x00, 0x0D, 0x04, 0x00, 0x0D], 0x000F3012#32, 0#32, 100) := by
  decide +kernel
theorem test_configure_closed : seen (.configure 0 0) (closedState (quietDraws 1)) = ([], 0x000F1702#32, 0x1FF#32, 0) := by
  decide +kernel

/-! ## Frames and responses -/

/-- The write frames of R100 and a generic one send their three bytes and take nothing from the FIFO. -/
theorem test_write_frames :
    [Instr.spell, .winsel0, .winsel1, .wrUartCtrlOn, .wrUartCtrlOff, .wrGlobFlashBackup, .wrGlobSwReset, .wrModeExit,
      .wrMscFlashTest, .writeFrame 0x80 0x55].map (fun i => (seen i (openState [0xAA] (quietDraws 6))).1) =
    [[0xFF, 0xFF, 0x0D], [0xFE, 0x00, 0x0D], [0xFE, 0x01, 0x0D], [0x88, 0x03, 0x0D], [0x88, 0x00, 0x0D], [0x8A, 0x08, 0x0D],
      [0x8A, 0x80, 0x0D], [0x83, 0x02, 0x0D], [0x83, 0x08, 0x0D], [0x80, 0x55, 0x0D]] := by decide +kernel
/-- The read frames of R100 and a generic one, and a raw frame. -/
theorem test_read_frames :
    [Instr.rdModeMsc, .rdDiagStat1, .rdGlobCmd, .rdProd0, .rdProd1, .rdProd2, .rdProd3, .rdSer0, .rdSer1, .rdSer2, .rdSer3,
      .readFrame 0x80, .rawFrame 0x02 0x0D 0x0D].map
      (fun i => (seen i (openState [0x01, 0x02, 0x03, 0x04] (quietDraws 10))).1) =
    [[0x02, 0x00, 0x0D], [0x04, 0x00, 0x0D], [0x0A, 0x00, 0x0D], [0x6A, 0x00, 0x0D], [0x6C, 0x00, 0x0D], [0x6E, 0x00, 0x0D],
      [0x70, 0x00, 0x0D], [0x74, 0x00, 0x0D], [0x76, 0x00, 0x0D], [0x78, 0x00, 0x0D], [0x7A, 0x00, 0x0D], [0x80, 0x00, 0x0D],
      [0x0D, 0x0D, 0x0D]] := by decide +kernel
/-- TR-9's bytes as a raw frame of three response bytes: RESP_LEN and the word at 0x800. -/
theorem test_rawFrame_response :
    (readAfter (.rawFrame 3 0x0A 0x00) (openState [0x0A, 0x04, 0x00, 0x0D] (quietDraws 9)) 0x07,
      readAfter (.rawFrame 3 0x0A 0x00) (openState [0x0A, 0x04, 0x00, 0x0D] (quietDraws 9)) 0x200) =
    (3#32, 0x0000040A#32) := by decide +kernel
/-- S1: the response of a running read. -/
theorem test_readResponse_value :
    (match exec (.readResponse 0x0A 0x12 0x34 0x0D) (runningState [.parse 0x0A] [] [] (quietDraws 1)) with
      | .next t => t.seq.map (·.value)
      | _ => none) = some 0x1234#16 := by decide +kernel

/-! ## The machine -/

/-- P6 as the host writes it. -/
theorem test_step_runs_the_host_write :
    (match step { closedState (quietDraws 1) with host := [.write 0 0x0000000F#32] } with
      | .next t => (t.statusWord, t.host)
      | _ => (0#32, [])) = (0x000F1702#32, []) := by decide +kernel
/-- RST-1. -/
theorem test_reset_registers :
    [0x00#10, 0x01#10, 0x02#10, 0x03#10, 0x04#10, 0x05#10, 0x06#10, 0x07#10, 0x10#10, 0x200#10].map State.reset.hostRead =
      [0#32, 0#32, 0#32, 0#32, 0x00070800#32, 0x00000BB8#32, 0#32, 0#32, 0#32, 0#32] := by decide +kernel
/-- R35: HS-1's dropped request. -/
theorem test_busy_write_rejected :
    (match exec (.resetSensor 0 0) (runningState [.sleep 100] [] [] []) with
      | .next t => (t.reject, t.opreq, t.busy)
      | _ => (false, 1#32, false)) = (true, 0#32, true) := by decide +kernel
/-- S3 and S4. -/
theorem test_decodeText :
    [[0x4134#16, 0x3334#16, 0x3032#16, 0x3056#16], [0x4100#16, 0x0042#16, 0x0000#16, 0x4300#16], [0x0000#16]].map
      (decodeText Params.default) =
    [some [0x34, 0x41, 0x34, 0x33, 0x32, 0x30, 0x56, 0x30], some [0x41, 0x42, 0x43], some []] := by decide +kernel

/-! ## Witnesses: for each statement with hypotheses, operands and a state that meet them -/

/-- A state of the tests with its stream closed is calm for its quiet draws. -/
theorem closedState_calm (n : Nat) (rest : List Draw) : (closedState (quietDraws n ++ rest)).Calm n rest :=
  ⟨rfl, rfl, rfl, nofun⟩

/-- A state of the tests with its stream open is ready for its quiet draws. -/
theorem openState_ready (rx : List Byte) (n : Nat) (rest : List Draw) : (openState rx (quietDraws n ++ rest)).Ready n rest :=
  ⟨rfl, rfl, rfl, rfl, rfl, nofun⟩

/-- The state of a running operation is calm for its quiet draws. -/
theorem runningState_calm (todo : List Act) (buf rx : List Byte) (n : Nat) (rest : List Draw) :
    (runningState todo buf rx (quietDraws n ++ rest)).Calm n rest := ⟨rfl, rfl, rfl, nofun⟩

/-- An answer with echo 0x0A and terminator 0x0D. -/
def answer (v : Half) : Answer := { echo := 0x0A, value := v, terminator := 0x0D }

/-- A state of the tests whose next draws are those of the beats. -/
theorem openState_follows (beats : List Beat) (rest : List Draw) :
    (openState [] (beats.map Beat.draw ++ rest)).Follows beats rest := ⟨rfl, rfl, rfl, rfl, rfl, nofun, rfl⟩

/-- The timeout of the states of the tests, for which the runs below are possible. -/
theorem openState_timeout (script : List Draw) : (openState [] script).stream.timeout.toNat = 3000 := rfl

/-- A poll that expires: only its attempts and its last check have to be looked at. -/
theorem expires_possible {timeout bit interval bound : Nat} {early : List Reading}
    (h : ∀ r ∈ early, r.possible timeout ∧ ∀ a, r = .answered a → a.value.getLsbD bit = true)
    (hb : bound ≤ attemptsMs interval early) (hl : attemptsMs interval early.dropLast < bound) :
    PollRun.possible timeout bit interval bound ⟨early, none⟩ :=
  ⟨h, hb, fun front last he => by rwa [show early = front ++ [last] from he, List.dropLast_concat] at hl⟩

/-- Attempts that end no poll: bits 3 and 10 set, a short answer, a failing select and a failing flush. -/
def notYet : List Reading := [.answered (answer 0x0408), .short [1, 2, 3] 3000, .selectFails 0, .readFails 3]

theorem notYet_possible : ∀ r ∈ notYet, r.possible 3000 ∧
    ∀ a, r = .answered a → a.value.getLsbD 3 = true ∧ a.value.getLsbD 10 = true := by
  simp [notYet, Reading.possible]
  decide

/-- `n` attempts that get no byte for the timeout (FB-4, SW-3). -/
def unanswered (n : Nat) : List Reading := List.replicate n (.short [] 3000)

theorem unanswered_possible (n bit : Nat) : ∀ r ∈ unanswered n, r.possible 3000 ∧
    ∀ a, r = .answered a → a.value.getLsbD bit = true := fun r h => by
  rw [List.eq_of_mem_replicate h]
  exact ⟨⟨by decide, Nat.le_refl _⟩, nofun⟩

/-- A flashBackup of each kind. -/
def backupRuns : List FlashRun :=
  [.commandFails (false, 0), .commandFails (true, 3), .expires (unanswered 2),
    .verified [] (answer 0) (.answered (answer 0x0001)), .verified [] (answer 0) (.short [] 3000),
    .verified [] (answer 0) (.selectFails 3), .verified notYet (answer 0xFFF7) (.answered (answer 0xFFFE))]

theorem backupRuns_possible : ∀ r ∈ backupRuns, r.possible 3000 .backup := by
  simp only [backupRuns, List.forall_mem_cons, List.not_mem_nil, false_imp_iff, implies_true, and_true]
  exact ⟨Nat.zero_le _, Nat.le_refl _, expires_possible (unanswered_possible 2 3) (by decide) (by decide),
    ⟨⟨nofun, by decide, by decide⟩, trivial⟩, ⟨⟨nofun, by decide, by decide⟩, by decide, Nat.le_refl _⟩,
    ⟨⟨nofun, by decide, by decide⟩, Nat.le_refl _⟩,
    ⟨⟨fun r h => ⟨(notYet_possible r h).1, fun a ha => ((notYet_possible r h).2 a ha).1⟩, by decide, by decide⟩, trivial⟩⟩

theorem backupRuns_failure : backupRuns.map (FlashRun.failure .backup) =
    [some (.transport .io (some 0xFE)), some (.transport .io (some 0x8A)), some .pollExpired, some .verifyFlagSet,
      some (.transport .timeout (some 0x04)), some (.transport .io (some 0x04)), none] := by decide

/-- A flashTest of each kind: failing by a transport error, by expiry and by its verify, passing with a wait that expires
and with one that ends. -/
def testRuns : List TestRun :=
  [⟨.commandFails (true, 0), ⟨[], none⟩⟩, ⟨.expires (unanswered 2), ⟨[], none⟩⟩,
    ⟨.verified [] (answer 0) (.answered (answer 0x0004)), ⟨[], none⟩⟩,
    ⟨.verified notYet (answer 0) (.answered (answer 0)), ⟨unanswered 1, none⟩⟩,
    ⟨.verified [] (answer 0) (.answered (answer 0xFFFB)), ⟨[.answered (answer 0x0400)], some (answer 0)⟩⟩]

theorem testRuns_possible : ∀ r ∈ testRuns, r.possible 3000 := by
  simp only [testRuns, List.forall_mem_cons, List.not_mem_nil, false_imp_iff, implies_true, and_true]
  exact ⟨⟨Nat.zero_le _, nofun⟩, ⟨expires_possible (unanswered_possible 2 10) (by decide) (by decide), nofun⟩,
    ⟨⟨⟨nofun, by decide, by decide⟩, trivial⟩, fun h => absurd h (by decide)⟩,
    ⟨⟨⟨fun r h => ⟨(notYet_possible r h).1, fun a ha => ((notYet_possible r h).2 a ha).2⟩, by decide, by decide⟩, trivial⟩,
      fun _ => expires_possible (unanswered_possible 1 10) (by decide) (by decide)⟩,
    ⟨⟨⟨nofun, by decide, by decide⟩, trivial⟩,
      fun _ => ⟨by simp [Reading.possible]; decide, by decide, by decide⟩⟩⟩

theorem testRuns_failure : testRuns.map TestRun.failure =
    [some (.transport .io (some 0x83)), some .pollExpired, some .verifyFlagSet, none, none] := by decide

/-- A softwareReset of each kind. -/
def resetRuns : List ResetRun :=
  [.commandFails (false, 3), .commandFails (true, 0), .polled ⟨unanswered 3, none⟩, .polled ⟨notYet, some (answer 0)⟩]

theorem resetRuns_possible : ∀ r ∈ resetRuns, r.possible 3000 := by
  simp only [resetRuns, List.forall_mem_cons, List.not_mem_nil, false_imp_iff, implies_true, and_true]
  exact ⟨Nat.le_refl _, Nat.zero_le _, expires_possible (unanswered_possible 3 10) (by decide) (by decide),
    ⟨fun r h => ⟨(notYet_possible r h).1, fun a ha => ((notYet_possible r h).2 a ha).2⟩, by decide, by decide⟩⟩

theorem resetRuns_failure : resetRuns.map ResetRun.failure =
    [some (.transport .io (some 0xFE)), some (.transport .io (some 0x8A)), some .pollExpired, none] := by decide

/-- A setUartAutoStart of each kind. -/
def armRuns : List ArmRun := [.spellFails 0 0, .spellFails 2 3, .commandFails (false, 3), .commandFails (true, 0), .armed]

theorem armRuns_possible : ∀ r ∈ armRuns, r.possible := by
  simp [armRuns, ArmRun.possible]

theorem armRuns_failure : armRuns.map ArmRun.failure =
    [some (.transport .io (some 0xFF)), some (.transport .io (some 0xFF)), some (.transport .io (some 0xFE)),
      some (.transport .io (some 0x88)), none] := by decide

/-- A closing select that is sent, and one that fails at its first byte and at its flush. -/
theorem courtesy_possible : ∀ c ∈ [none, some 0, some 3], courtesyPossible c := by simp [courtesyPossible]

/-! The beats say what the spec's vectors say of the TX trace and of the time. -/

/-- FB-4: 18 bytes, `t = 6200`. -/
theorem test_beats_FB4 :
    let t := State.reset.along (FlashRun.beats 0x00 .backup (.expires (unanswered 2)))
    t.tx = [0xFE, 0x01, 0x0D, 0x8A, 0x08, 0x0D, 0xFE, 0x01, 0x0D, 0x0A, 0x00, 0x0D, 0xFE, 0x01, 0x0D, 0x0A, 0x00, 0x0D] ∧
      t.now = 6200 := by decide

/-- SW-2: 24 bytes, `t = 6100`. -/
theorem test_beats_SW2 :
    let t := State.reset.along (ResetRun.beats 0x00 (.polled ⟨unanswered 2, some (answer 0)⟩))
    t.tx.length = 24 ∧ t.now = 6100 := by decide

/-- S8 and FR-4: 48 bytes, `t = 900`. -/
theorem test_beats_FR4 :
    let t := State.reset.along (frameBeats 0xFE 0x00 ++ rebootBeats 0x00
      ⟨.verified [] (answer 0) (.answered (answer 0)), ⟨[], some (answer 0)⟩⟩ (.polled ⟨[], some (answer 0)⟩))
    t.tx.length = 48 ∧ t.now = 900 := by decide

theorem witness_DecodeEncodeAgree :
    [Instr.reservedOp0 0xFFFFFFF0#32, .sendCommands 0xFFFF 8 1, .sendCommands 0 0 0, .writeFrame 0x00 0x00, .readFrame 0xFF,
      .rawFrame 0x04 0x0A 0x01, .rawFrame 0xFF 0xFF 0xFF, .rawFrame 0x01 0x00 0x00].map Instr.wellFormed =
      List.replicate 8 true := by decide

/-- One state for each clause. -/
theorem witness_StepRunsTheDecodedInstruction :
    ((closedState []).seq = none ∧ decodeAs .opreq 0x0000000F#32 = .ok (.configure 0 0)) ∧
    ((runningState [.frame ⟨4, 0x0A, 0⟩ 0x0A] [] [] []).seq.map (·.todo) = some [.frame ⟨4, 0x0A, 0⟩ 0x0A] ∧
      decodeAs .cmd (commandWord ⟨4, 0x0A, 0⟩) = .ok .rdGlobCmd) ∧
    ((runningState [.parse 0x0A] [1, 2, 3, 4] [] []).seq.map (·.buf) = some [1, 2, 3, 4] ∧
      decodeBytes .rsp4 [1, 2, 3, 4] = .ok (.readResponse 1 2 3 4)) ∧
    ((runningState [.sleep 50] [] [] []).seq.map (·.todo) = some [.sleep 50] ∧
      (runningState [.parse 0x0A] [1, 2, 3] [] []).seq.map (·.buf.length) = some 3) := by decide

theorem witness_BlockResetValues (s : State) : (∃ t : State, t = State.reset) ∧ ∃ t, t = s.blockReset 2 := ⟨⟨_, rfl⟩, _, rfl⟩

/-- A running operation, and the idle block. -/
theorem witness_ResetEndsTheOperation :
    ({ runningState [.sleep 50] [] [] [] with meddle := [.reset] } : State).busy = true ∧
    ({ closedState [] with host := [.reset, .wait 1] } : State).seq = none := by decide

/-- After a Pass: each operation with a value, the longest response and the empty one, an identity record that fits and
none; after a Fail: the failures of R263, one for each clause, and both forms of `at`. -/
theorem witness_CompletionMapping :
    ((∀ op ∈ [3#4, 4#4], ∀ buf ∈ [[], [0x0D#8]], (op = 3#4 ∨ op = 4#4) ∧ buf.length ≤ 2040) ∧
      (List.replicate 2040 0x0D#8).length ≤ 2040 ∧ (6#4 ≠ 3#4 ∧ 6#4 ≠ 4#4 ∧ 6#4 ≠ 7#4 ∧ 14#4 ≠ 6#4) ∧
      ({ raw := List.replicate 16 1#8, product := [], serial := [] } : Identity).fits ∧
      ((⟨7#4, [], [], 0#16, [], none, false⟩ : Run).ident = none)) ∧
    [Failure.transport .timeout (some 0x0A), .transport .alreadyOpen none, .pollExpired, .verifyFlagSet, .notConfirmed,
      .refused, .decode].map Failure.rep = [some 0x0A, none, none, none, none, none, none] :=
  ⟨⟨by decide, Nat.le_of_eq List.length_replicate, by decide,
    ⟨Nat.le_of_eq List.length_replicate, Nat.zero_le _, Nat.zero_le _⟩, rfl⟩, by decide⟩

/-- Both forms of FAIL_ADDR, and the ends of the byte-string registers. -/
theorem witness_StatusWordLayout :
    ({ State.reset with failAddr := some 0x0A } : State).failAddr = some 0x0A ∧ State.reset.failAddr = none ∧
    ∀ i ∈ [0x14#10, 0x1F#10, 0x200#10, 0x3FD#10],
      (0x14 ≤ i.toNat ∧ i.toNat ≤ 0x1F) ∨ (0x200 ≤ i.toNat ∧ i.toNat ≤ 0x3FD) := by decide

theorem witness_UnlistedOffsets :
    [0x11#10, 0x13#10, 0x20#10, 0x1FF#10, 0x3FE#10, 0x3FF#10].map (fun i => i.toNat) = [17, 19, 32, 511, 1022, 1023] := by
  decide

/-- Indexes of both clauses, at the ends of their ranges. -/
theorem witness_HostWritesReadBack :
    (closedState []).seq = none ∧
    (∀ i ∈ [4#10, 6#10, 8#10, 15#10], i ≠ 0#10 ∧ ((4 ≤ i.toNat ∧ i.toNat ≤ 6) ∨ (8 ≤ i.toNat ∧ i.toNat ≤ 15))) ∧
    ∀ i ∈ [1#10, 3#10, 7#10, 16#10, 1023#10],
      i ≠ 0#10 ∧ ¬((4 ≤ i.toNat ∧ i.toNat ≤ 6) ∨ (8 ≤ i.toNat ∧ i.toNat ≤ 15)) := by decide

theorem witness_BusyBlockDropsRequests :
    (Instr.reservedOp0 0#32).format = .opreq ∧ (Instr.configure 0 0).format = .opreq ∧
      (runningState [] [] [] []).busy = true := by decide

/-- A step in the middle of an operation, and its completion step. -/
theorem witness_HostWritesWhileBusy :
    (runningState [.sleep 1] [] [] []).busy = true ∧ (runningState [] [] [] []).busy = true ∧ 1#10 ≠ 0#10 ∧
      0x3FF#10 ≠ 0#10 := by decide

/-- The boundary of log entry 10: a request written at the completion step is dropped, and REJECT stays 1. -/
theorem test_write_at_completion :
    let t := ({ runningState [] [] [] (quietDraws 1) with meddle := [.write 0#10 0x0000000F#32] } : State).tick
    (t.busy, t.done, t.reject) = (false, true, true) := by decide +kernel

theorem witness_ResultsHeldWhileBusy :
    (runningState [.sleep 50] [] [] (quietDraws 1)).busy = true ∧
      (runningState [.sleep 50] [] [] (quietDraws 1)).tick.busy = true := by decide +kernel

/-- The block after OPEN is coherent, and its next step answers a state. -/
theorem witness_StepKeepsCoherence :
    (openState [] (quietDraws 1)).Coherent ∧ ∃ t, step (openState [] (quietDraws 1)) = .next t :=
  ⟨⟨by decide, by simp [openState, State.reset], by simp [openState, State.reset, State.busy], by simp [openState, State.reset],
    by simp [openState, State.reset], by simp [openState, State.reset, State.statusCleared], by simp [openState, State.reset],
    by simp [openState, State.reset], nofun⟩, _, rfl⟩

theorem witness_TxTraceOnlyGrows :
    (runningState [.tx 0x0A 0x0A] [] [] (quietDraws 1)).noReset ∧
      ∀ h, (runningState [.tx 0x0A 0x0A] [] [] (quietDraws 1)).host ≠ .reset :: h :=
  ⟨nofun, nofun⟩

theorem witness_OperationsKeepTheConfiguration : (openState [] (quietDraws 1)).noReset := nofun

theorem witness_ClosedStreamSendsNothing :
    (closedState []).seq = none ∧ (closedState []).stream.isOpen = false ∧ (closedState []).noReset ∧
      (Instr.waitUntilReady 0xFFFF 0 0).format = .opreq ∧ ∀ hi f, Instr.waitUntilReady 0xFFFF 0 0 ≠ .openStream hi f :=
  ⟨rfl, rfl, nofun, rfl, nofun⟩

theorem witness_IgnoredFieldsDoNotMatter :
    ((Instr.closeStream 0xFFFFFF 1).format = .opreq ∧
      (Instr.closeStream 0xFFFFFF 1).withoutIgnored = (Instr.closeStream 0 0).withoutIgnored) ∧
    (openState [] (quietDraws 2)).seq = none ∧ (openState [] (quietDraws 2)).noReset := ⟨by decide, rfl, nofun⟩

/-- A closed stream, the unbounded FIFO, and a full FIFO of depth 2 under each policy. -/
theorem witness_FifoArrivals :
    (closedState []).stream.isOpen = false ∧ (openState [] []).stream.isOpen = true ∧
    (openState [] []).params.rxFifoDepth = none ∧
    ∀ policy ∈ [RxOverflow.dropNewest, .dropOldest, .stall],
      let s : State := { openState [1, 2] [] with
        params := { Params.default with rxFifoDepth := some 2, rxOverflow := policy } }
      s.stream.isOpen = true ∧ s.params.rxFifoDepth = some 2 ∧ s.rx.length ≤ 2 ∧ s.params.rxOverflow = policy := by decide

/-- A byte at the very instant of the timeout, a wait that is 1 ms short of it, and the timeout itself. -/
theorem witness_ReadTimerAndTie :
    ∀ d ∈ [{ Draw.after 3000 with arrivals := [0x0A] }, Draw.after 2999, Draw.after 3000],
      let s := runningState [.rx 4 0 0x0A] [] [] [d]
      s.seq.map (·.todo) = some [.rx 4 0 0x0A] ∧ s.meddle = [] ∧ s.stream.isOpen = true ∧ s.params.rxFifoDepth = none ∧
        s.rx = [] ∧ s.script = [d] ∧
        (d.arrivals = [0x0A] ∨ s.now + d.elapsed - 0 < s.stream.timeout.toNat ∨
          s.stream.timeout.toNat ≤ s.now + d.elapsed - 0) := by decide

/-- Strings and a response that fill their registers. -/
theorem witness_WindowBytesOfACompletion :
    (List.replicate 2040 0x0D#8).length ≤ 2040 ∧
    ({ raw := List.replicate 16 1#8, product := List.replicate 16 2#8, serial := [] } : Identity).fits :=
  ⟨Nat.le_of_eq List.length_replicate, Nat.le_of_eq List.length_replicate, Nat.le_of_eq List.length_replicate,
    Nat.zero_le _⟩

theorem witness_IllegalRequestIsRefused :
    (closedState []).seq = none ∧ 8 < (9#8).toNat ∧ 8 < (255#8).toNat ∧ (closedState []).stream.isOpen = false := by decide

theorem witness_OpenSucceeds :
    (closedState (quietDraws 2)).seq = none ∧ (closedState (quietDraws 2)).stream.isOpen = false ∧
      (closedState (quietDraws 2)).Calm 2 [] := ⟨rfl, rfl, closedState_calm 2 []⟩

/-- Each outcome of a platform open that fails. -/
theorem witness_OpenReportsThePlatformFailure :
    ∀ o ∈ [PlatformOutcome.notFound, .accessDenied, .busy, .otherFailure],
      let s := closedState [Draw.opening o]
      s.seq = none ∧ s.stream.isOpen = false ∧ s.meddle = [] ∧ s.script = [Draw.opening o] ∧ (connKind o).isSome = true := by
  decide

theorem witness_OpenWhileOpenIsRefused : (openState [0x0A] (quietDraws 1 ++ [])).Ready 1 [] := openState_ready [0x0A] 1 []

theorem witness_CloseAlwaysPasses :
    ((closedState (quietDraws 2)).seq = none ∧ (closedState (quietDraws 2)).Calm 2 []) ∧
    (openState [7] (quietDraws 2 ++ [])).seq = none ∧ (openState [7] (quietDraws 2 ++ [])).Calm 2 [] :=
  ⟨⟨rfl, closedState_calm 2 []⟩, rfl, (openState_ready [7] 2 []).calm⟩

/-- The longest response and the empty one. -/
theorem witness_SendCommandResult :
    ((openState (List.replicate 255 0x0D ++ [7]) (quietDraws 261 ++ [])).Ready ((255#8).toNat + 6) [] ∧
      (List.replicate 255 (0x0D : Byte)).length = (255#8).toNat) ∧
    (openState ([] ++ [7]) (quietDraws 6 ++ [])).Ready ((0#8).toNat + 6) [] ∧ ([] : List Byte).length = (0#8).toNat :=
  ⟨⟨openState_ready _ 261 [], List.length_replicate⟩, openState_ready _ 6 [], rfl⟩

/-- A closed stream; the platform failing the first byte and the flush; a response of 3 bytes instead of 4 (TR-9). -/
theorem witness_SendCommandFailures :
    ((closedState (quietDraws 1)).seq = none ∧ (closedState (quietDraws 1)).stream.isOpen = false ∧
      (closedState (quietDraws 1)).Calm 1 []) ∧
    (∀ k ∈ [0, 3], k ≤ 3 ∧ (openState [] (quietDraws (k + 1) ++ [Draw.ioFailure])).Calm (k + 1) [Draw.ioFailure]) ∧
    ([1, 2, 3] : List Byte).length < (4#8).toNat ∧ (3000#32).toNat ≤ 3000 ∧
    (openState [1, 2, 3] (quietDraws 8 ++ [Draw.after 3000])).Calm (3 + 5) [Draw.after 3000] :=
  ⟨⟨rfl, rfl, closedState_calm 1 []⟩,
    fun k hk => ⟨by simp at hk; omega, (openState_ready [] (k + 1) [Draw.ioFailure]).calm⟩,
    by decide, by decide, (openState_ready _ 8 _).calm⟩

/-- A list of two commands (TR-13), and the empty list. -/
def twoCommands (rx : List Byte) (script : List Draw) : State :=
  { openState rx script with cmds := ((Vector.replicate 8 0#32).set 0 0x00FE01).set 1 0x040A00 }

theorem witness_SendCommandsResult :
    ((2#8).toNat ≤ 8 ∧ (twoCommands [1, 2, 3, 4, 7] (quietDraws 15 ++ [])).Ready (5 * (2#8).toNat + 4 + 1) [] ∧
      ((twoCommands [] []).cmds.toList.take 2).map entryCommand = [⟨0, 0xFE, 1⟩, ⟨4, 0x0A, 0⟩] ∧
      ([[], [1, 2, 3, 4]] : List (List Byte)).map List.length =
        ([⟨0, 0xFE, 1⟩, ⟨4, 0x0A, 0⟩] : List Command).map (fun c => c.len.toNat)) ∧
    (0#8).toNat ≤ 8 ∧ (8#8).toNat ≤ 8 ∧ (twoCommands [] (quietDraws 1 ++ [])).Ready (5 * (0#8).toNat + 0 + 1) [] :=
  ⟨⟨by decide, ⟨rfl, rfl, rfl, rfl, rfl, nofun⟩, by decide, by decide⟩, by decide, by decide,
    ⟨rfl, rfl, rfl, rfl, rfl, nofun⟩⟩

/-- TR-14's second command gets no answer, or three bytes of one; the first byte of its frame and its flush fail, and the
first command's; the stream is closed. -/
theorem witness_SendCommandsStopAtTheFirstFailure :
    ((2#8).toNat ≤ 8 ∧ ((twoCommands [] []).cmds.toList.take 2).map entryCommand = [⟨0, 0xFE, 1⟩] ++ ⟨4, 0x0A, 0⟩ :: [] ∧
      ((twoCommands [] []).cmds.toList.take 2).map entryCommand = [] ++ ⟨0, 0xFE, 1⟩ :: [⟨4, 0x0A, 0⟩] ∧
      ([[]] : List (List Byte)).map List.length = ([⟨0, 0xFE, 1⟩] : List Command).map (fun c => c.len.toNat)) ∧
    (∀ part ∈ [[], [1, 2, 3]], part.length < (4#8).toNat ∧ (3000#32).toNat ≤ 3000 ∧
      (twoCommands part (quietDraws (5 * (1 + 1) + 0 + part.length) ++ [Draw.after 3000])).Ready
        (5 * (1 + 1) + 0 + part.length) [Draw.after 3000]) ∧
    (∀ k ∈ [0, 3], k ≤ 3 ∧
      (twoCommands [7] (quietDraws (5 * 1 + 0 + 1 + k) ++ [Draw.ioFailure])).Ready (5 * 1 + 0 + 1 + k) [Draw.ioFailure] ∧
      (twoCommands [7] (quietDraws (5 * 0 + 0 + 1 + k) ++ [Draw.ioFailure])).Ready (5 * 0 + 0 + 1 + k) [Draw.ioFailure]) ∧
    let s : State := { twoCommands [] (quietDraws 1) with stream := Stream.reset }
    s.seq = none ∧ s.stream.isOpen = false ∧ s.Calm 1 [] :=
  ⟨⟨by decide, by decide, by decide, by decide⟩,
    fun part h => ⟨by simp at h; rcases h with rfl | rfl <;> decide, by decide, rfl, rfl, rfl, rfl, rfl, nofun⟩,
    fun k h => ⟨by simp at h; omega, ⟨rfl, rfl, rfl, rfl, rfl, nofun⟩, ⟨rfl, rfl, rfl, rfl, rfl, nofun⟩⟩,
    rfl, rfl, rfl, rfl, rfl, nofun⟩

/-- A named read frame and a raw frame of 255 response bytes in a running operation. -/
theorem witness_FramesInAnOperation :
    (Instr.rdGlobCmd.format = .cmd ∧ Instr.rdGlobCmd.command.len.toNat = ([1, 2, 3, 4] : List Byte).length ∧
      (runningState [.frame ⟨4, 0x0A, 0⟩ 0x0A, .parse 0x0A] [] [1, 2, 3, 4, 7] (quietDraws 9 ++ [])).Calm 9 []) ∧
    (Instr.rawFrame 255 1 2).command.len.toNat = 255 ∧ Instr.spell.command.len.toNat = 0 :=
  ⟨⟨by decide, by decide, runningState_calm _ _ _ 9 []⟩, by decide, by decide⟩

theorem witness_FramesAsRequests :
    (Instr.readFrame 0x80).format = .cmd ∧ ([1, 2, 3, 4] : List Byte).length = (Instr.readFrame 0x80).command.len.toNat ∧
      (openState [1, 2, 3, 4, 7] (quietDraws 10 ++ [])).Ready 10 [] :=
  ⟨by decide, by decide, openState_ready _ 10 []⟩

theorem witness_ResponseAtTheParser :
    (runningState [.parse 0x0A, .sleep 1] [] [] (quietDraws 1 ++ [])).seq.map (·.todo) = some [.parse 0x0A, .sleep 1] ∧
      (runningState [.parse 0x0A, .sleep 1] [] [] (quietDraws 1 ++ [])).Calm 1 [] := ⟨rfl, runningState_calm _ _ _ 1 []⟩

/-- A read that waits for its bytes, and a closed stream. -/
theorem witness_ResponseArrives :
    (∀ r rep rest, (runningState [.rx 4 0 0x0A] [] [] []).seq = some r → r.todo ≠ .parse rep :: rest) ∧
      (runningState [.rx 4 0 0x0A] [] [] []).stream.isOpen = true ∧
      (runningState [.rx 4 0 0x0A] [] [] []).params.rxFifoDepth = none ∧ (closedState []).stream.isOpen = false :=
  ⟨fun r _ _ h => by cases h; simp [startRun], rfl, rfl, rfl⟩

theorem witness_ResetSensorResult :
    (openState [7] (quietDraws 16 ++ [])).Ready 16 [] ∧
    ∀ p ∈ [(0, 0), (2, 3)], p.1 ≤ 2 ∧ p.2 ≤ 3 ∧
      (openState [] ((spellFailsBeats p.1 p.2).map Beat.draw ++ [])).Follows (spellFailsBeats p.1 p.2) [] :=
  ⟨openState_ready _ 16 [], fun p h => ⟨by simp at h; rcases h with rfl | rfl <;> decide,
    by simp at h; rcases h with rfl | rfl <;> decide, openState_follows _ []⟩⟩

theorem witness_ReadRegisterWordResult :
    (openState ((answer 0#16).bytes ++ [7]) (quietDraws 16 ++ [])).Ready 16 [] := openState_ready _ 16 []

/-- One state for each failure: RW-9, RW-7, RW-8 and the flushes, RW-6 and a response of 3 bytes. -/
theorem witness_ReadRegisterWordFailures :
    ((closedState (quietDraws 1)).stream.isOpen = false ∧ (closedState (quietDraws 1)).Calm 1 []) ∧
    (∀ k ∈ [0, 3], k ≤ 3 ∧ (openState [] (quietDraws (k + 1) ++ [Draw.ioFailure])).Calm (k + 1) [Draw.ioFailure] ∧
      (openState [] (quietDraws (k + 6) ++ [Draw.ioFailure])).Calm (k + 6) [Draw.ioFailure]) ∧
    ∀ rx ∈ [[], [1, 2, 3]], rx.length < 4 ∧
      (openState rx (quietDraws (rx.length + 10) ++ [Draw.after 3000])).Calm (rx.length + 10) [Draw.after 3000] :=
  ⟨⟨rfl, closedState_calm 1 []⟩,
    fun k hk => ⟨by simp at hk; omega, (openState_ready [] (k + 1) _).calm, (openState_ready [] (k + 6) _).calm⟩,
    fun rx hk => ⟨by simp at hk; rcases hk with rfl | rfl <;> decide, (openState_ready rx _ _).calm⟩⟩

/-- The eight words of ID-1. -/
def identityWords : List Answer :=
  [0x3341#16, 0x3234#16, 0x4456#16, 0x3031#16, 0x3231#16, 0x3433#16, 0x3635#16, 0x3837#16].map answer

theorem witness_DetectIdentityResult :
    identityWords.length = 8 ∧
    decodeText Params.default ((identityWords.map (·.value)).take 4) = some [0x41, 0x33, 0x34, 0x32, 0x56, 0x44, 0x31, 0x30] ∧
    decodeText Params.default ((identityWords.map (·.value)).drop 4) = some [0x31, 0x32, 0x33, 0x34, 0x35, 0x36, 0x37, 0x38] ∧
    Params.default.names [0x41, 0x33, 0x34, 0x32, 0x56, 0x44, 0x31, 0x30]
      [0x4D, 0x2D, 0x41, 0x35, 0x34, 0x32, 0x56, 0x52, 0x31] ∧
    Params.default.names [0x41, 0x42] [0x41, 0x42] ∧
    (openState (identityWords.flatMap Answer.bytes ++ [7]) (quietDraws 137 ++ [])).Ready 137 [] ∧
    (∀ c ∈ [none, some 0, some 3], courtesyPossible c) ∧
    ∀ beats, (openState [] (beats.map Beat.draw ++ [])).Follows beats [] :=
  ⟨by decide, by decide +kernel, by decide +kernel, .inl ⟨[], [], rfl, nofun⟩, .inr ⟨rfl, by decide⟩,
    openState_ready _ 137 [], courtesy_possible, fun beats => openState_follows beats []⟩

/-- The first word and the last one without an answer, and a string that is rejected (ID-6). -/
theorem witness_DetectIdentityIsAtomic :
    ((openState [] (quietDraws 10 ++ [Draw.after 3000])).Ready (16 * 0 + 0 + 10) [Draw.after 3000] ∧
      (openState ((identityWords.take 7).flatMap Answer.bytes ++ [1, 2, 3]) (quietDraws 125 ++ [Draw.after 3000])).Ready
        (16 * 7 + 3 + 10) [Draw.after 3000]) ∧
    decodeText { Params.default with nonAscii := .reject } [0x41C3#16, 0#16, 0#16, 0#16] = none ∧
    ({ openState [] (quietDraws 129 ++ []) with params := { Params.default with nonAscii := .reject } } : State).Ready 129 [] ∧
    (∀ r ∈ [Reading.short [1, 2, 3] 3000, .selectFails 0, .readFails 3], r.possible 3000 ∧ r.failure 0x6A ≠ none) ∧
    ([] : List Answer).length = ([] : List Byte).length ∧
    ∀ beats, (openState [] (beats.map Beat.draw ++ [])).Follows beats [] :=
  ⟨⟨openState_ready _ 10 _, openState_ready _ 125 _⟩, by decide +kernel, ⟨rfl, rfl, rfl, rfl, rfl, nofun⟩,
    by simp [Reading.possible, Reading.failure], rfl, fun beats => openState_follows beats []⟩

/-- "A B C 78": inner spaces are no matter, only the first and the last byte must not be whitespace. -/
theorem witness_TextRoundTrip :
    (∀ x ∈ ([0x41, 0x20, 0x42, 0x20, 0x43, 0x20, 0x37, 0x38] : List Byte), x ≠ 0x00#8 ∧ x.toNat < 0x80) ∧
      0x41#8 ∉ Params.default.wsSet ∧ 0x38#8 ∉ Params.default.wsSet := by decide

/-- ID-5 and ID-6: the word 0x41C3 dropped to "A", and rejected. -/
theorem witness_DecodedText :
    decodeText { Params.default with nonAscii := .drop } [0x41C3#16, 0#16, 0#16, 0#16] = some [0x41] ∧
    decodeText { Params.default with nonAscii := .reject } [0x41C3#16, 0#16, 0#16, 0#16] = none ∧
    decodeText Params.default [0x41C3#16, 0#16, 0#16, 0#16] = some [0xC3, 0x41] := by decide +kernel

theorem witness_SetUartAutoStartResult :
    ((openState [7] (quietDraws 27 ++ [])).Ready 27 []) ∧
    (∀ r ∈ armRuns, r.possible) ∧
    (∀ beats, (openState [] (beats.map Beat.draw ++ [])).Follows beats []) :=
  ⟨openState_ready _ 27 [],
    armRuns_possible, fun beats => openState_follows beats []⟩

theorem witness_FlashBackupResult :
    ((answer 0x0000).value.getLsbD 3 = false ∧ (answer 0xFFFE).value.getLsbD 0 = false ∧
    (answer 0x0001).value.getLsbD 0 = true ∧
    (openState ((answer 0x0000).bytes ++ (answer 0xFFFE).bytes ++ [7]) (quietDraws 45 ++ [])).Ready 45 [] ∧
    (openState ((answer 0x0000).bytes ++ (answer 0x0001).bytes ++ [7]) (quietDraws 44 ++ [])).Ready 44 []) ∧
    (∀ r ∈ backupRuns, r.possible 3000 .backup) ∧
    (∀ beats, (openState [] (beats.map Beat.draw ++ [])).Follows beats []) :=
  ⟨⟨by decide, by decide, by decide, openState_ready _ 45 [], openState_ready _ 44 []⟩,
    backupRuns_possible, fun beats => openState_follows beats []⟩

theorem witness_FlashBackupNeverClears :
    (List.replicate 50 (answer 0x0008)).length = 50 ∧
    (∀ a ∈ List.replicate 50 (answer 0x0008), a.value.getLsbD 3 = true) ∧
    (openState ((List.replicate 50 (answer 0x0008)).flatMap Answer.bytes ++ [7]) (quietDraws 912 ++ [])).Ready 912 [] :=
  ⟨by simp, fun a h => by rw [List.eq_of_mem_replicate h]; decide, openState_ready _ 912 []⟩

theorem witness_FlashTestResult :
    ((answer 0xFBFF).value.getLsbD 10 = false ∧ (answer 0xFFFB).value.getLsbD 2 = false ∧
    (answer 0x0004).value.getLsbD 2 = true ∧
    (openState ((answer 0xFBFF).bytes ++ (answer 0xFFFB).bytes ++ (answer 0).bytes ++ [7]) (quietDraws 65 ++ [])).Ready 65 [] ∧
    (openState ((answer 0xFBFF).bytes ++ (answer 0x0004).bytes ++ [7]) (quietDraws 44 ++ [])).Ready 44 []) ∧
    (∀ r ∈ testRuns, r.possible 3000) ∧
    (∀ beats, (openState [] (beats.map Beat.draw ++ [])).Follows beats []) :=
  ⟨⟨by decide, by decide, by decide, openState_ready _ 65 [], openState_ready _ 44 []⟩,
    testRuns_possible, fun beats => openState_follows beats []⟩

theorem witness_FlashTestIgnoresTheTrailingWait :
    (List.replicate 40 (answer 0x0400)).length = 40 ∧
    (∀ a ∈ List.replicate 40 (answer 0x0400), a.value.getLsbD 10 = true) ∧
    (openState ((answer 0).bytes ++ (answer 0).bytes ++ ((List.replicate 40 (answer 0x0400)).flatMap Answer.bytes ++ [7]))
      (quietDraws 768 ++ [])).Ready 768 [] :=
  ⟨by simp, fun a h => by rw [List.eq_of_mem_replicate h]; decide, openState_ready _ 768 []⟩

/-- Ready at the last attempt within the longest bound, 1310 attempts after the first. -/
theorem witness_WaitUntilReadyBecomesReady :
    ((∀ b ∈ List.replicate 1310 (answer 0x0400), b.value.getLsbD 10 = true) ∧ (answer 0xFBFF).value.getLsbD 10 = false ∧
    50 * (List.replicate 1310 (answer 0x0400)).length < (65535#16).toNat ∧
    (openState ((List.replicate 1310 (answer 0x0400)).flatMap Answer.bytes ++ ((answer 0xFBFF).bytes ++ [7]))
      (quietDraws 23599 ++ [])).Ready 23599 []) ∧
    PollRun.possible 3000 10 50 (65535#16).toNat ⟨notYet, some (answer 0)⟩ ∧
    PollRun.possible 3000 10 50 (1#16).toNat ⟨[], some (answer 0)⟩ ∧
    (∀ beats, (openState [] (beats.map Beat.draw ++ [])).Follows beats []) :=
  ⟨⟨fun a h => by rw [List.eq_of_mem_replicate h]; decide, by decide, by rw [List.length_replicate]; decide,
    openState_ready _ 23599 []⟩,
    ⟨fun r h => ⟨(notYet_possible r h).1, fun a ha => ((notYet_possible r h).2 a ha).2⟩, by decide, by decide⟩,
    ⟨nofun, by decide, by decide⟩, fun beats => openState_follows beats []⟩

/-- The bounds 0, 60 and 65535 ms: no attempt, two, and 1311. -/
theorem witness_WaitUntilReadyExpires :
    (∀ p ∈ [(0, 0), (60, 2), (65535, 1311)],
      (∀ b ∈ List.replicate p.2 (answer 0x0400), b.value.getLsbD 10 = true) ∧
      (List.replicate p.2 (answer 0x0400)).length = ((BitVec.ofNat 16 p.1).toNat + 49) / 50 ∧
      (openState ((List.replicate p.2 (answer 0x0400)).flatMap Answer.bytes ++ [7]) (quietDraws (18 * p.2 + 2) ++ [])).Ready
        (18 * p.2 + 2) []) ∧
    PollRun.possible 3000 10 50 (7000#16).toNat ⟨unanswered 3, none⟩ ∧
    PollRun.possible 3000 10 50 (0#16).toNat ⟨[], none⟩ ∧
    (∀ beats, (openState [] (beats.map Beat.draw ++ [])).Follows beats []) :=
  ⟨fun p hp => ⟨fun a h => by rw [List.eq_of_mem_replicate h]; decide,
    by
      rw [List.length_replicate]
      revert p
      decide, openState_ready _ _ []⟩,
    expires_possible (unanswered_possible 3 10) (by decide) (by decide), ⟨nofun, by decide, by simp⟩, fun beats => openState_follows beats []⟩

theorem witness_WaitUntilReadyOnAClosedStream :
    (closedState (quietDraws 14)).seq = none ∧ (closedState (quietDraws 14)).stream.isOpen = false ∧
      (closedState (quietDraws 14)).Calm (3 * ((200 + 49) / 50) + 2) [] := ⟨rfl, rfl, closedState_calm 14 []⟩

/-- Ready at the first attempt, and at the last of the 140 that the bound allows. -/
theorem witness_SoftwareResetResult :
    ((answer 0).value.getLsbD 10 = false ∧
    ∀ n ∈ [0, 139], (∀ b ∈ List.replicate n (answer 0x0400), b.value.getLsbD 10 = true) ∧
      (List.replicate n (answer 0x0400)).length < 140 ∧
      (openState ((List.replicate n (answer 0x0400)).flatMap Answer.bytes ++ ((answer 0).bytes ++ [7]))
        (quietDraws (18 * n + 29) ++ [])).Ready (18 * n + 29) []) ∧
    (∀ r ∈ resetRuns, r.possible 3000) ∧
    (∀ beats, (openState [] (beats.map Beat.draw ++ [])).Follows beats []) :=
  ⟨⟨by decide, fun n hn => ⟨fun a h => by rw [List.eq_of_mem_replicate h]; decide, by simp at hn; simp; omega,
    openState_ready _ _ []⟩⟩,
    resetRuns_possible, fun beats => openState_follows beats []⟩

/-- A MODE_CTRL answer with bit 10 alone. -/
theorem witness_ExitAutoModeResult :
    ((answer 0x0400).value.getLsbD 10 = true ∧ (answer 0).value.getLsbD 3 = false ∧ (answer 0).value.getLsbD 0 = false ∧
    (openState ((answer 0x0400).bytes ++ [7]) (quietDraws 40 ++ [])).Ready 40 [] ∧
    (openState ((answer 0x0400).bytes ++ (answer 0).bytes ++ (answer 0).bytes ++ [7]) (quietDraws 84 ++ [])).Ready 84 []) ∧
    (∀ r ∈ backupRuns, r.possible 3000 .backup) ∧ (∀ c ∈ [none, some 0, some 3], courtesyPossible c) ∧
    (∀ beats, (openState [] (beats.map Beat.draw ++ [])).Follows beats []) :=
  ⟨⟨by decide, by decide, by decide, openState_ready _ 40 [], openState_ready _ 84 []⟩,
    backupRuns_possible, courtesy_possible, fun beats => openState_follows beats []⟩

/-- Every bit but 10 (EX-5), no answer (EX-4), and 3 bytes of one. -/
theorem witness_ModeExitNotConfirmed :
    ((∃ hi persist, Instr.exitAutoMode 0 1 = .exitAutoMode hi persist) ∧ (∃ hi, Instr.fullReset 0 1 = .fullReset hi 1#1) ∧
    (answer 0xFBFF).value.getLsbD 10 = false ∧
    (openState ((answer 0xFBFF).bytes ++ [7]) (quietDraws 22 ++ [])).Ready 22 [] ∧
    ∀ rx ∈ [[], [1, 2, 3]], rx.length < 4 ∧ (3000#32).toNat ≤ 3000 ∧
      (openState rx (quietDraws (rx.length + 16) ++ [Draw.after 3000])).Ready (rx.length + 16) [Draw.after 3000]) ∧
    (∀ p ∈ [(false, 0), (true, 3)], p.2 ≤ 3) ∧
    (∀ beats, (openState [] (beats.map Beat.draw ++ [])).Follows beats []) :=
  ⟨⟨⟨_, _, rfl⟩, ⟨_, rfl⟩, by decide, openState_ready _ 22 [],
    fun rx h => ⟨by simp at h; rcases h with rfl | rfl <;> decide, by decide, openState_ready rx _ _⟩⟩,
    by decide, fun beats => openState_follows beats []⟩

theorem witness_FullResetWithoutPersist :
    ((answer 0).value.getLsbD 10 = false ∧ (answer 0).value.getLsbD 2 = false ∧ (answer 4).value.getLsbD 2 = true ∧
    (openState ((answer 0).bytes ++ (answer 0).bytes ++ (answer 0).bytes ++ (answer 0).bytes ++ [7])
      (quietDraws 117 ++ [])).Ready 117 [] ∧
    (openState ((answer 0).bytes ++ (answer 4).bytes ++ (answer 0).bytes ++ [7]) (quietDraws 96 ++ [])).Ready 96 []) ∧
    (∀ r ∈ testRuns, r.possible 3000) ∧ (∀ r ∈ resetRuns, r.possible 3000) ∧
    (∀ beats, (openState [] (beats.map Beat.draw ++ [])).Follows beats []) :=
  ⟨⟨by decide, by decide, by decide, openState_ready _ 117 [], openState_ready _ 96 []⟩,
    testRuns_possible, resetRuns_possible, fun beats => openState_follows beats []⟩

theorem witness_FullResetWithPersist :
    ((answer 0x0400).value.getLsbD 10 = true ∧ (answer 0).value.getLsbD 3 = false ∧ (answer 0).value.getLsbD 0 = false ∧
    (openState ((answer 0x0400).bytes ++ (answer 0).bytes ++ (answer 0).bytes ++ (answer 0).bytes ++ (answer 0).bytes ++
      (answer 0).bytes ++ (answer 0).bytes ++ [7]) (quietDraws 195 ++ [])).Ready 195 [] ∧
    (openState ((answer 0x0400).bytes ++ (answer 0).bytes ++ (answer 0).bytes ++ (answer 0).bytes ++ (answer 4).bytes ++
      (answer 0).bytes ++ [7]) (quietDraws 174 ++ [])).Ready 174 []) ∧
    (∀ r ∈ backupRuns, r.possible 3000 .backup) ∧ (∀ r ∈ testRuns, r.possible 3000) ∧
    (∀ r ∈ resetRuns, r.possible 3000) ∧ (∀ c ∈ [none, some 0, some 3], courtesyPossible c) ∧
    (∀ beats, (openState [] (beats.map Beat.draw ++ [])).Follows beats []) :=
  ⟨⟨by decide, by decide, by decide, openState_ready _ 195 [], openState_ready _ 174 []⟩,
    backupRuns_possible, testRuns_possible, resetRuns_possible, courtesy_possible, fun beats => openState_follows beats []⟩

theorem witness_FullResetFailsWithTheSoftwareReset :
    ((answer 0).value.getLsbD 10 = false ∧ (answer 4).value.getLsbD 2 = true ∧
    (openState ((answer 0).bytes ++ (answer 4).bytes ++ [7]) (quietDraws 67 ++ [Draw.ioFailure])).Ready 67 [Draw.ioFailure]) ∧
    (∀ r ∈ testRuns, r.possible 3000) ∧ (∀ r ∈ resetRuns, r.possible 3000) ∧
    (∀ r ∈ backupRuns, r.possible 3000 .backup) ∧ (answer 0x0400).value.getLsbD 10 = true ∧
    (∀ beats, (openState [] (beats.map Beat.draw ++ [])).Follows beats []) :=
  ⟨⟨by decide, by decide, openState_ready _ 67 _⟩,
    testRuns_possible, resetRuns_possible, backupRuns_possible, by decide, fun beats => openState_follows beats []⟩

theorem witness_ConfigureResult :
    ((answer 0xFFF7).value.getLsbD 3 = false ∧ (answer 0xFFFE).value.getLsbD 0 = false ∧ (answer 1).value.getLsbD 0 = true ∧
    (openState ((answer 0xFFF7).bytes ++ (answer 0xFFFE).bytes ++ [7]) (quietDraws 71 ++ [])).Ready 71 [] ∧
    (openState ((answer 0xFFF7).bytes ++ (answer 1).bytes ++ [7]) (quietDraws 70 ++ [])).Ready 70 []) ∧
    (∀ r ∈ backupRuns, r.possible 3000 .backup) ∧ (∀ r ∈ armRuns, r.possible) ∧
    (∀ beats, (openState [] (beats.map Beat.draw ++ [])).Follows beats []) :=
  ⟨⟨by decide, by decide, by decide, openState_ready _ 71 [], openState_ready _ 70 []⟩,
    backupRuns_possible, armRuns_possible, fun beats => openState_follows beats []⟩

theorem witness_OperationsOnAClosedStream :
    (closedState (quietDraws 1)).seq = none ∧ (closedState (quietDraws 1)).stream.isOpen = false ∧
      (closedState (quietDraws 1)).Calm 1 [] := ⟨rfl, rfl, closedState_calm 1 []⟩

end Sys2Proof.Machine
end

/-! SUPPORT. What the 16 request rows do to a busy block. -/

namespace Sys2Proof.Machine

/-- Every request row answers one shared operation: a request, or, for an illegal word, the illegal request (R91, R101). -/
theorem exec_of_format_opreq {i : Instr} (s : State) (hi : i.format = .opreq) :
    (∃ q todo, exec i s = .next (s.request q todo)) ∨ ∃ q, exec i s = .next (s.illegalRequest q) := by
  cases i
  case reservedOp0 w => exact .inr ⟨w, rfl⟩
  case sendCommands hi n f =>
    cases hn : legalCount n
    · exact .inr ⟨_, by simp only [exec, execSendCommands, hn]; rfl⟩
    · exact .inl ⟨_, _, by simp only [exec, execSendCommands, hn]; rfl⟩
  case openStream | closeStream | sendCommand | resetSensor | readRegisterWord | detectIdentity | setUartAutoStart
      | flashBackup | flashTest | waitUntilReady | softwareReset | exitAutoMode | fullReset | configure =>
    exact .inl ⟨_, _, rfl⟩
  all_goals nomatch hi

/-- A busy block drops a request (R35). -/
theorem State.request_of_busy {s : State} (hb : s.busy = true) (q : Word) (todo : List Act) :
    s.request q todo = s.rejectRequest := if_pos hb

/-- A busy block drops an illegal word too: it is not refused (R35, R102). -/
theorem State.illegalRequest_of_busy {s : State} (hb : s.busy = true) (q : Word) :
    s.illegalRequest q = s.rejectRequest := if_pos hb

/-- Settles O12: each request row is a request or an illegal request, and a busy block drops both. -/
theorem busyBlockDropsRequests : Obligations.BusyBlockDropsRequests := by
  intro i s hi hb
  rcases exec_of_format_opreq s hi with ⟨q, todo, hreq⟩ | ⟨q, hill⟩
  · rw [hreq, State.request_of_busy hb, State.rejectRequest]
  · rw [hill, State.illegalRequest_of_busy hb, State.rejectRequest]

end Sys2Proof.Machine

/-! SUPPORT. The illegal request words: which they are (R101) and what they do to an idle block (R102). -/

namespace Sys2Proof

/-- The decoder's legality test is the rule R101. -/
theorem illegalRequest_iff (w : Word) :
    illegalRequest w = true ↔
      w.extractLsb' 0 4 = 0x0#4 ∨ w.extractLsb' 5 3 ≠ 0#3 ∨
        (w.extractLsb' 0 4 = 0x4#4 ∧ 8 < (w.extractLsb' 8 8).toNat) := by
  simp [illegalRequest, legalCount, or_assoc]

/-- The operation code of a legal word is not 0 (R101). -/
theorem opField_toNat_pos_of_legal {w : Word} (hw : illegalRequest w = false) : 0 < (opField w).toNat := by
  refine Nat.pos_of_ne_zero fun h0 => ?_
  have hop : w.extractLsb' 0 4 = 0#4 := BitVec.eq_of_toNat_eq h0
  simp [(illegalRequest_iff w).mpr (.inl hop)] at hw

/-- A word decodes to the reserved request exactly when the legality test refuses it: each of the operation codes 1 to 15
has a request of its own, and a legal word has no other code (R94, R101). -/
theorem decodeRequest_eq_reservedOp0_iff (w : Word) : decodeRequest w = .reservedOp0 w ↔ illegalRequest w = true := by
  constructor
  · intro hd
    by_contra hl
    have hpos := opField_toNat_pos_of_legal (Bool.eq_false_of_not_eq_true hl)
    have hlt := (opField w).isLt
    rw [decodeRequest, if_neg hl] at hd
    interval_cases (opField w).toNat <;> nomatch hd
  · exact fun hi => if_pos hi

/-- Settles O3: the decoder answers the reserved request where its legality test refuses the word, and that test is
R101. -/
theorem illegalRequestWords : Obligations.IllegalRequestWords := fun w =>
  (decodeRequest_eq_reservedOp0_iff w).trans (illegalRequest_iff w)

end Sys2Proof

namespace Sys2Proof.Machine

/-- An illegal word sent to an idle block is refused, with nothing but the report changed (R102). -/
theorem State.illegalRequest_of_idle {s : State} (hs : s.seq = none) (q : Word) :
    s.illegalRequest q = s.reports q .refused false := by
  have hb : ¬ s.busy = true := by simp [hs]
  rw [State.illegalRequest, if_neg hb, State.refuse_eq]
  rfl

/-- SEND_COMMANDS with a count over MAX_CMDS is an illegal request (R101, R148). -/
theorem exec_sendCommands_of_count_over {n : Byte} (hn : 8 < n.toNat) (hi : Half) (f : BitVec 1) (s : State) :
    exec (.sendCommands hi n f) s = .next (s.illegalRequest (encode (.sendCommands hi n f))) := by
  have hl : ¬ legalCount n = true := by simpa [legalCount] using hn
  exact congrArg _ (if_neg hl)

/-- STATUS after a refusal, by its fields: REASON = REFUSED, ERR = ILLEGAL_OP and DONE = 1; OPEN and LAST_OP are those of
the stream and the word (R21, R102). -/
theorem State.statusWord_reports_refused (s : State) (q : Word) :
    (s.reports q .refused false).statusWord =
      0#12 ++ q.extractLsb' 0 4 ++ 5#4 ++ 9#4 ++ 0#1 ++ 0#1 ++ 0#1 ++ BitVec.ofBool s.stream.isOpen ++ 0#1 ++ 0#1 ++
        1#1 ++ 0#1 := rfl

/-- Settles O25: both illegal requests reach the refusal of an idle block, and the example's STATUS is read off its
fields. -/
theorem illegalRequestIsRefused : Obligations.IllegalRequestIsRefused := by
  intro s hs
  refine ⟨fun w => ?_, fun hi n f hn => ?_, fun hclosed => ?_⟩
  · exact congrArg _ (State.illegalRequest_of_idle hs w)
  · rw [exec_sendCommands_of_count_over hn, State.illegalRequest_of_idle hs]
  · rw [State.statusWord_reports_refused, hclosed]
    decide

end Sys2Proof.Machine

/-! SUPPORT. A request that fails at its first position, and OPEN on an open stream (R134). -/

namespace Sys2Proof.Machine

/-- A failure that nothing stops completes the operation (R263, R265). -/
theorem State.failWith_of_unwind_none {r : Run} (hu : unwind r.todo = none) (s : State) (f : Failure) :
    s.failWith r f = s.completeFail r f := by
  rcases s.failWith_cases r f with ⟨todo, w, hstop, -⟩ | ⟨-, hfail⟩
  · rw [hu] at hstop
    nomatch hstop
  · exact hfail

/-- FT_WARN is 0 at a completion before fullReset's flashTest has failed (R27, R226). -/
theorem reportedFtWarn_of_not_ftw {r : Run} (h : r.ftw = false) : reportedFtWarn r = false := by
  rw [reportedFtWarn, h, Bool.and_false]

/-- One calm step of a position that fails, with nothing after it that stops the failure (R265, R266). -/
theorem BusyRun.fails {s : State} {rest : List Draw} {n : Nat} {tx rx : List Byte} {pend now : Nat} {op : BitVec 4}
    {a : Act} {todo : List Act} {buf : List Byte} {v : Half} {ws : List Half} {id : Option Identity} {ftw : Bool}
    {f : Failure} (h : s.Still rx.length) (hu : unwind todo = none)
    (ha : ∀ (u : State) (r : Run), u.stream = s.stream → u.act r Draw.quiet a = u.failWith r f) :
    BusyRun 1 (s.mid rest (n + 1) tx rx pend now ⟨op, a :: todo, buf, v, ws, id, ftw⟩)
      ((s.mid rest n tx rx pend now ⟨op, todo, buf, v, ws, id, ftw⟩).completeFail ⟨op, todo, buf, v, ws, id, ftw⟩ f) :=
  .act h ((ha _ _ (by rfl)).trans (State.failWith_of_unwind_none hu _ f))

/-- A request to an idle block in a calm state whose first position fails, with nothing after it that stops the failure,
takes one step, and only the report and the draw it took tell the next state from the old one (R33, R34, R266). -/
theorem State.request_fails_first {s : State} {q : Word} {a : Act} {todo : List Act} {rest : List Draw} {f : Failure}
    (hs : s.seq = none) (hc : s.Calm 1 rest) (hu : unwind todo = none)
    (ha : ∀ (u : State) (r : Run), u.stream = s.stream → u.act r Draw.quiet a = u.failWith r f) :
    s.request q (a :: todo) = { s with script := rest }.reports q (failReport f) false := by
  have hrun := State.request_fail hs hc (.fails (hc.still q (a :: todo)) hu ha) rfl (by decide)
  rw [hrun, State.completeFail, reportedFtWarn_of_not_ftw rfl]
  rfl

/-- OPEN's step on an open stream fails with ALREADY_OPEN, whatever the platform would have answered (R134). -/
theorem State.openStream_of_open {s : State} (ho : s.stream.isOpen = true) (r : Run) (o : PlatformOutcome) :
    s.openStream r o = s.failWith r (.transport .alreadyOpen none) := if_pos ho

/-- Settles O28: OPEN's one position fails on an open stream, and nothing stops that failure. -/
theorem openWhileOpenIsRefused : Obligations.OpenWhileOpenIsRefused := by
  intro hi f s rest hready
  have hfails (u : State) (r : Run) (hstream : u.stream = s.stream) :
      u.act r Draw.quiet .openStream = u.failWith r (.transport .alreadyOpen none) := by
    have hopen : u.stream.isOpen = true := by rw [hstream, hready.isOpen]
    exact State.openStream_of_open hopen r Draw.quiet.openOutcome
  exact congrArg _ (State.request_fails_first hready.idle hready.calm rfl hfails)

end Sys2Proof.Machine

/-! SUPPORT. The reset values of the block's state, after reset and after a block reset at any state (R301). -/

namespace Sys2Proof.Machine

/-- The state right after reset is the one a block reset leaves of it, so what holds after every block reset holds right
after reset. -/
theorem State.reset_eq_blockReset : State.reset = State.reset.blockReset 0 := rfl

/-- An offset reads 0x00 where no byte is listed (R20). -/
theorem Memory.read_nil (a : Nat) : Memory.read [] a = 0x00#8 := rfl

/-- A block reset clears every field of STATUS (R21, R301): the fields are those of the reset state, whatever `s` was
doing. -/
theorem State.statusWord_blockReset (s : State) (k : Nat) : (s.blockReset k).statusWord = 0#32 := by
  have hfields : (s.blockReset k).statusWord = State.reset.statusWord := rfl
  rw [hfields]
  decide

/-- A block reset clears FAIL_ADDR (R29, R301). -/
theorem State.failAddrWord_blockReset (s : State) (k : Nat) : (s.blockReset k).failAddrWord = 0#32 := rfl

/-- A block reset ends the running operation (R32, R302). -/
theorem State.busy_blockReset (s : State) (k : Nat) : (s.blockReset k).busy = false := rfl

/-- Settles O6: the reset state is itself the outcome of a block reset, and a block reset writes each register, the
sequencer, the stream and the FIFO with its value of R301. -/
theorem blockResetValues : Obligations.BlockResetValues := by
  intro s k t ht
  obtain ⟨u, j, rfl⟩ : ∃ u j, t = State.blockReset u j := by
    rcases ht with hreset | hblock
    · exact ⟨State.reset, 0, hreset.trans State.reset_eq_blockReset⟩
    · exact ⟨s, k, hblock⟩
  exact ⟨u.blockReset_opreq j, u.statusWord_blockReset j, u.blockReset_rdata j, u.failAddrWord_blockReset j,
    u.blockReset_cfgBaud j, u.blockReset_cfgReadTimeout j, u.blockReset_cfgPort j, u.blockReset_respLen j,
    u.blockReset_cmds j, u.blockReset_idLens j, u.blockReset_win j, Memory.read_nil, u.blockReset_seq j,
    u.busy_blockReset j, u.blockReset_stream j, u.blockReset_rx j, s.blockReset_now k⟩

end Sys2Proof.Machine

/-! SUPPORT. The fields of a word that is put together from its fields, and a word put together again from its fields (R91,
R100). -/

namespace Sys2Proof

open BitVec (extractLsb'_append_eq_of_le extractLsb'_append_eq_of_add_le extractLsb'_eq_self)
open BitVec renaming extractLsb'_append_extractLsb'_eq_extractLsb' → join

@[simp] theorem hiField_requestWord (hi : BitVec 24) (f : BitVec 1) (op : BitVec 4) :
    hiField (requestWord hi f op) = hi := by
  simp (disch := decide) only [hiField, requestWord, extractLsb'_append_eq_of_le]
  exact extractLsb'_eq_self

@[simp] theorem fField_requestWord (hi : BitVec 24) (f : BitVec 1) (op : BitVec 4) :
    fField (requestWord hi f op) = f := by
  simp (disch := decide) only [fField, requestWord, extractLsb'_append_eq_of_le, extractLsb'_append_eq_of_add_le]
  exact extractLsb'_eq_self

@[simp] theorem tField_requestWord (t : Half) (a : Byte) (f : BitVec 1) (op : BitVec 4) :
    tField (requestWord (t ++ a) f op) = t := by
  simp (disch := decide) only [tField, requestWord, extractLsb'_append_eq_of_le]
  exact extractLsb'_eq_self

@[simp] theorem dField_requestWord (l d a : Byte) (f : BitVec 1) (op : BitVec 4) :
    dField (requestWord (l ++ d ++ a) f op) = d := by
  simp (disch := decide) only [dField, requestWord, extractLsb'_append_eq_of_le, extractLsb'_append_eq_of_add_le]
  exact extractLsb'_eq_self

@[simp] theorem lField_requestWord (l d a : Byte) (f : BitVec 1) (op : BitVec 4) :
    lField (requestWord (l ++ d ++ a) f op) = l := by
  simp (disch := decide) only [lField, requestWord, extractLsb'_append_eq_of_le]
  exact extractLsb'_eq_self

/-- The Command in the word of a Command (R100). -/
@[simp] theorem wordCommand_commandWord (c : Command) : wordCommand (commandWord c) = c := by
  simp (disch := decide) only [wordCommand, commandWord, extractLsb'_append_eq_of_le, extractLsb'_append_eq_of_add_le]
  exact congr (congrArg₂ Command.mk extractLsb'_eq_self extractLsb'_eq_self) extractLsb'_eq_self

/-- A word is its fields, one after the other (R91). -/
theorem eq_requestWord (w : Word) (hrsv : w.extractLsb' 5 3 = 0#3) : requestWord (hiField w) (fField w) (opField w) = w := by
  rw [requestWord, ← hrsv, hiField, fField, opField, join (by decide : 8 = 5 + 3), join (by decide : 5 = 4 + 1),
    join (by decide : 4 = 0 + 4)]
  exact extractLsb'_eq_self

/-- Bits [31:8] are T and A. -/
theorem tField_append_aField (w : Word) : tField w ++ aField w = hiField w :=
  join (by decide : 16 = 8 + 8)

/-- Bits [31:8] are L, D and A. -/
theorem lField_append_dField_append_aField (w : Word) : lField w ++ dField w ++ aField w = hiField w := by
  rw [lField, dField, aField, join (by decide : 24 = 16 + 8), join (by decide : 16 = 8 + 8)]
  rfl

/-! ## Requests -/

/-- The word of a well-formed instruction, as the laws of the instructions say it. -/
theorem encodeFormat (i : Instr) : Laws.EncodeFormat.Statement i := by
  cases i
  case reservedOp0 w => exact Laws.EncodeFormat.reservedOp0 w
  case sendCommands hi n f => exact Laws.EncodeFormat.sendCommands hi n f
  case readResponse e m l t => exact Laws.EncodeFormat.readResponse e m l t
  case openStream | closeStream | sendCommand | resetSensor | readRegisterWord | detectIdentity | setUartAutoStart
      | flashBackup | flashTest | waitUntilReady | softwareReset | exitAutoMode | fullReset | configure =>
    exact fun _ => ⟨Laws.requestWord_legal _ _ (by decide) (by decide), fun _ => Laws.requestWord_op _ _ _⟩
  all_goals exact fun _ => Laws.commandWord_term _

/-- Bits [15:8] of a request word whose upper bits end with the byte `a` (R91). -/
@[simp] theorem aField_requestWord (hi : Half) (a : Byte) (f : BitVec 1) (op : BitVec 4) :
    aField (requestWord (hi ++ a) f op) = a := Laws.requestWord_a hi a f op

/-- Decoding the word of a well-formed request gives the request back (R91, R94). -/
theorem decodeRequest_encode {i : Instr} (hw : i.wellFormed = true) (hf : i.format = .opreq) :
    decodeRequest (encode i) = i := by
  have hword := encodeFormat i hw
  rw [hf] at hword
  obtain ⟨hlegal, hop⟩ := hword
  cases i
  case reservedOp0 w => exact if_pos hw
  case openStream | closeStream | sendCommand | sendCommands | resetSensor | readRegisterWord | detectIdentity
      | setUartAutoStart | flashBackup | flashTest | waitUntilReady | softwareReset | exitAutoMode | fullReset
      | configure =>
    rw [decodeRequest, if_neg (by rw [hlegal]; exact Bool.false_ne_true), hop (bne_iff_ne.mp rfl)]
    simp [encode, Laws.opCode]
  all_goals nomatch hf

/-- A legal word decodes to the request of its operation code, whose word it is (R91, R92, R94). -/
theorem decodeRequest_legal {w : Word} (hw : illegalRequest w = false) :
    (decodeRequest w).wellFormed = true ∧ (decodeRequest w).format = .opreq ∧ encode (decodeRequest w) = w := by
  have hnot : ¬ illegalRequest w = true := by simp [hw]
  obtain ⟨hop0, hrsv, hcount⟩ : w.extractLsb' 0 4 ≠ 0#4 ∧ w.extractLsb' 5 3 = 0#3 ∧
      ((opField w).toNat = 4 → legalCount (aField w) = true) := by
    rw [illegalRequest_iff] at hnot
    refine ⟨fun h => hnot (.inl h), not_not.mp fun h => hnot (.inr (.inl h)), fun h => ?_⟩
    exact decide_eq_true (not_lt.mp fun ha => hnot (.inr (.inr ⟨BitVec.eq_of_toNat_eq h, ha⟩)))
  have hword := eq_requestWord w hrsv
  have hop : BitVec.ofNat 4 (opField w).toNat = opField w := by simp
  rw [← hop] at hword
  have hpos := opField_toNat_pos_of_legal hw
  have hlt := (opField w).isLt
  rw [decodeRequest, if_neg hnot]
  interval_cases (opField w).toNat
  -- SEND_COMMANDS, operation 4, is the one whose legality says something of its operands: its count.
  on_goal 4 =>
    refine ⟨hcount rfl, rfl, ?_⟩
    simpa only [encode, tField_append_aField] using hword
  all_goals
    refine ⟨rfl, rfl, ?_⟩
    simpa only [encode, tField_append_aField, lField_append_dField_append_aField] using hword

/-! ## Frames -/

/-- The Commands of the named frames are the named writes and the named reads (R100). -/
theorem frameCatalogue_map_fst : frameCatalogue.map Prod.fst =
    namedWrites.map (fun p => ⟨0x00, p.1, p.2⟩) ++ namedReads.map (fun a => ⟨0x04, a, 0x00⟩) := rfl

/-- A Command that is named (R100). -/
theorem mem_frameCatalogue_iff (c : Command) : (∃ row ∈ frameCatalogue, row.1 = c) ↔
    (c.len = 0x00 ∧ (c.b1, c.b2) ∈ namedWrites) ∨ (c.len = 0x04 ∧ c.b2 = 0x00 ∧ c.b1 ∈ namedReads) := by
  obtain ⟨len, b1, b2⟩ := c
  rw [← List.mem_map, frameCatalogue_map_fst, List.mem_append, List.mem_map, List.mem_map]
  refine or_congr ⟨?_, ?_⟩ ⟨?_, ?_⟩
  · rintro ⟨p, hp, heq⟩
    cases heq
    exact ⟨rfl, hp⟩
  · rintro ⟨hlen, hp⟩
    exact ⟨_, hp, congrArg₂ (Command.mk · · b2) hlen.symm rfl⟩
  · rintro ⟨a, ha, heq⟩
    cases heq
    exact ⟨rfl, rfl, ha⟩
  · rintro ⟨hlen, hb2, ha⟩
    exact ⟨_, ha, congrArg₂ (Command.mk · b1 ·) hlen.symm hb2.symm⟩

/-- Each named frame stands in the catalogue once, under the Command of its word (R100). -/
theorem frameCatalogue_rows : ∀ row ∈ frameCatalogue,
    commandInstr row.1 = row.2 ∧ row.2.wellFormed = true ∧ row.2.format = .cmd ∧ encode row.2 = commandWord row.1 := by
  decide

/-- The row of a Command that is not named (R97, R100). -/
theorem commandInstr_of_not_named {c : Command} (hc : ¬ ∃ row ∈ frameCatalogue, row.1 = c) : commandInstr c =
    if c.len = 0x00 then .writeFrame c.b1 c.b2
    else if c.len = 0x04 ∧ c.b2 = 0x00 then .readFrame c.b1
    else .rawFrame c.len c.b1 c.b2 := by
  have hnone : frameCatalogue.find? (fun row => row.1 == c) = none := by
    rw [List.find?_eq_none]
    exact fun row hrow heq => hc ⟨row, hrow, eq_of_beq heq⟩
  rw [commandInstr, hnone]

/-- Every Command is one well-formed frame row, whose word is the Command's (R97, R100). -/
theorem commandInstr_wellFormed (c : Command) : (commandInstr c).wellFormed = true ∧ (commandInstr c).format = .cmd ∧
    encode (commandInstr c) = commandWord c := by
  by_cases hc : ∃ row ∈ frameCatalogue, row.1 = c
  · obtain ⟨row, hrow, rfl⟩ := hc
    obtain ⟨hinstr, hwell, hformat, hword⟩ := frameCatalogue_rows row hrow
    rw [hinstr]
    exact ⟨hwell, hformat, hword⟩
  · rw [commandInstr_of_not_named hc]
    rw [mem_frameCatalogue_iff] at hc
    obtain ⟨len, b1, b2⟩ := c
    split_ifs with hwrite hread
    · cases hwrite
      simpa [Instr.wellFormed, Instr.format, encode] using hc
    · obtain ⟨hlen, hb2⟩ := hread
      cases hlen
      cases hb2
      simpa [Instr.wellFormed, Instr.format, encode] using hc
    · refine ⟨?_, rfl, rfl⟩
      simpa [Instr.wellFormed, ← not_and_or] using And.intro hwrite hread

/-- Decoding the Command of a well-formed frame row gives the row back (R97, R100). -/
theorem commandInstr_command {i : Instr} (hw : i.wellFormed = true) (hf : i.format = .cmd) :
    commandInstr i.command = i := by
  cases i
  case writeFrame a v =>
    have hc : ¬ ∃ row ∈ frameCatalogue, row.1 = ⟨0x00, a, v⟩ := by
      rw [mem_frameCatalogue_iff]
      simpa [Instr.wellFormed] using hw
    rw [Instr.command, encode, wordCommand_commandWord, commandInstr_of_not_named hc]
    rfl
  case readFrame a =>
    have hc : ¬ ∃ row ∈ frameCatalogue, row.1 = ⟨0x04, a, 0x00⟩ := by
      rw [mem_frameCatalogue_iff]
      simpa [Instr.wellFormed] using hw
    rw [Instr.command, encode, wordCommand_commandWord, commandInstr_of_not_named hc]
    rfl
  case rawFrame len b1 b2 =>
    obtain ⟨hlen, hread⟩ : len ≠ 0x00 ∧ ¬ (len = 0x04 ∧ b2 = 0x00) := by
      simpa [Instr.wellFormed, ← not_and_or] using hw
    have hc : ¬ ∃ row ∈ frameCatalogue, row.1 = ⟨len, b1, b2⟩ := by
      rw [mem_frameCatalogue_iff]
      rintro (⟨h0, -⟩ | ⟨h4, h0, -⟩)
      · exact hlen h0
      · exact hread ⟨h4, h0⟩
    rw [Instr.command, encode, wordCommand_commandWord, commandInstr_of_not_named hc, if_neg hlen, if_neg hread]
  case spell | winsel0 | winsel1 | wrUartCtrlOn | wrUartCtrlOff | wrGlobFlashBackup | wrGlobSwReset | wrModeExit
      | wrMscFlashTest | rdModeMsc | rdDiagStat1 | rdGlobCmd | rdProd0 | rdProd1 | rdProd2 | rdProd3 | rdSer0 | rdSer1
      | rdSer2 | rdSer3 =>
    decide
  all_goals nomatch hf

/-! ## The statements -/

/-- Decoding the word of a well-formed frame row gives the row back (R100). -/
theorem decodeAs_cmd_encode {i : Instr} (hw : i.wellFormed = true) (hf : i.format = .cmd) :
    decodeAs .cmd (encode i) = .ok i := by
  have hterm := encodeFormat i hw
  rw [hf] at hterm
  rw [decodeAs, if_pos hterm]
  exact congrArg _ (commandInstr_command hw hf)

/-- Decoding the word of a response row gives its four bytes back (R99). -/
theorem decodeAs_rsp4_encode (e m l t : Byte) :
    decodeAs .rsp4 (encode (.readResponse e m l t)) = .ok (.readResponse e m l t) := by
  simp (disch := decide) only [decodeAs, encode, extractLsb'_append_eq_of_le, extractLsb'_append_eq_of_add_le]
  exact congrArg _ (congr (congr (congrArg₂ Instr.readResponse extractLsb'_eq_self extractLsb'_eq_self)
    extractLsb'_eq_self) extractLsb'_eq_self)

/-- Settles O1: by format. -/
theorem decodeEncodeAgree : Obligations.DecodeEncodeAgree := by
  intro i hw
  cases hf : i.format with
  | opreq => exact congrArg _ (decodeRequest_encode hw hf)
  | cmd => exact decodeAs_cmd_encode hw hf
  | rsp4 =>
    cases i
    case readResponse e m l t => exact decodeAs_rsp4_encode e m l t
    all_goals nomatch hf

/-- Settles O2: a word that the legality test refuses is the reserved request's, any other word is that of its operation's
request; a Command is a named frame or the generic row of its fields. -/
theorem everyWordEncodesBack : Obligations.EveryWordEncodesBack := by
  refine ⟨fun w => ?_, commandInstr_wellFormed⟩
  cases hw : illegalRequest w with
  | true =>
    rw [decodeRequest, if_pos hw]
    exact ⟨hw, rfl, rfl⟩
  | false => exact decodeRequest_legal hw

/-- Settles O4: closed words, decoded. -/
theorem specWordsDecode : Obligations.SpecWordsDecode := by
  unfold Obligations.SpecWordsDecode
  decide

end Sys2Proof

/-! SUPPORT. What the invariant of coherent states looks at, and that every step keeps it. -/

namespace Sys2Proof.Machine

/-! ## What the invariant looks at -/

/-- What the invariant looks at besides the FIFO; every other field has its reset value. -/
def State.reported (s : State) : State :=
  { State.reset with
    lastOp := s.lastOp, done := s.done, result := s.result, valid := s.valid, ftWarn := s.ftWarn, err := s.err,
    reason := s.reason, rdata := s.rdata, failAddr := s.failAddr, respLen := s.respLen, idLens := s.idLens,
    win := s.win, seq := s.seq }

/-- The invariant looks at those fields and the FIFO only. -/
theorem State.coherent_iff_reported (s : State) : s.Coherent ↔ s.reported.Coherent ∧ s.fifoWithinDepth :=
  ⟨fun h => ⟨⟨h.window, h.placed, h.notBoth, h.lastOp, h.ident, h.cleared, h.reported, h.respBound, nofun⟩, h.fifo⟩,
    fun ⟨h, hf⟩ => ⟨h.window, h.placed, h.notBoth, h.lastOp, h.ident, h.cleared, h.reported, h.respBound, hf⟩⟩

/-- What changes nothing that the invariant looks at, and keeps the FIFO within its depth, keeps the invariant. -/
theorem State.Coherent.of_reported {s t : State} (h : s.Coherent) (he : t.reported = s.reported)
    (hf : t.fifoWithinDepth) : t.Coherent :=
  t.coherent_iff_reported.mpr ⟨he ▸ (s.coherent_iff_reported.mp h).1, hf⟩

@[simp] theorem State.environment_reported (s : State) : s.environment.reported = s.reported := by
  simp [State.reported]

@[simp] theorem State.arrive_reported (s : State) (bs : List Byte) : (s.arrive bs).reported = s.reported := by
  simp [State.reported]

@[simp] theorem State.writeConfig_reported (s : State) (i : BitVec 10) (v : Word) :
    (s.writeConfig i v).reported = s.reported := by
  simp [State.reported]

@[simp] theorem State.writeBusy_reported (s : State) (i : BitVec 10) (v : Word) :
    (s.writeBusy i v).reported = s.reported := by
  simp [State.reported]

/-- What the environment does keeps the FIFO within its depth (R37). -/
theorem State.environment_fifoWithinDepth {s : State} (h : s.fifoWithinDepth) : s.environment.fifoWithinDepth := by
  refine State.arrive_fifoWithinDepth (fun n hn => ?_) _
  rw [show ({ s.dropDraw with now := _ } : State).rx = s.rx from s.dropDraw_rx]
  exact h n (s.dropDraw_params ▸ hn)

theorem State.Coherent.environment {s : State} (h : s.Coherent) : s.environment.Coherent :=
  h.of_reported s.environment_reported (State.environment_fifoWithinDepth h.fifo)

theorem State.Coherent.dropMeddle {s : State} (h : s.Coherent) : s.dropMeddle.Coherent := h.of_reported rfl h.fifo

theorem State.Coherent.writeBusy {s : State} (h : s.Coherent) (i : BitVec 10) (v : Word) : (s.writeBusy i v).Coherent :=
  h.of_reported (s.writeBusy_reported i v) (fun n hn => by simpa using h.fifo n (by simpa using hn))

/-! ## Completions -/

/-- The bytes of a completion stand in the byte-string registers of R20 only. -/
theorem windowImage_placed {ident : Option Identity} {resp : List Byte} (hi : ∀ i, ident = some i → i.fits)
    (hr : resp.length ≤ respCap) :
    ∀ c ∈ windowImage ident resp, (0x050 ≤ c.1 ∧ c.1 < 0x080) ∨ (0x800 ≤ c.1 ∧ c.1 < 0xFF8) := by
  intro c hc
  rcases Memory.mem_writeBytes hc with hc | hc
  · cases ident with
    | none => nomatch hc
    | some i =>
      obtain ⟨hraw, hproduct, hserial⟩ := hi i rfl
      have hlow : 0x050 ≤ c.1 ∧ c.1 < 0x080 := by
        rcases Memory.mem_writeBytes hc with hc | hc
        · rcases Memory.mem_writeBytes hc with hc | hc
          · rcases Memory.mem_writeBytes hc with hc | hc
            · nomatch hc
            · simp only [idRawBase, idCap] at hc hraw; omega
          · simp only [idProductBase, idCap] at hc hproduct; omega
        · simp only [idSerialBase, idCap] at hc hserial; omega
      exact .inl hlow
  · simp only [respBase, respCap] at hc hr
    omega

/-- A completion leads to a coherent state where its report agrees with R21, R25 to R29, R262 and R263. -/
theorem State.commit_coherent {s : State} {rep : Report} {ftWarn : Bool} (hf : s.fifoWithinDepth)
    (hi : ∀ i, rep.ident = some i → i.fits) (hr : rep.resp.length ≤ respCap)
    (hrep : (s.commit rep ftWarn).reportCoherent) : (s.commit rep ftWarn).Coherent where
  window := windowImage_wf _ _
  placed := windowImage_placed hi hr
  notBoth hb := nomatch hb
  lastOp r hr := nomatch hr
  ident r i hr := nomatch hr
  cleared hd := nomatch hd
  reported _ := hrep
  respBound := by
    rw [State.commit_respLen, BitVec.toNat_ofNat]
    exact (Nat.mod_le _ _).trans hr
  fifo := hf

/-! ### What a Pass reports, by operation -/

theorem passReport_valid_iff (r : Run) :
    (passReport r).valid = true ↔ r.op = 6#4 ∨ (r.op = 7#4 ∧ r.ident ≠ none) := by
  simp [passReport, returnsWord, returnsIdentity, Option.isSome_iff_ne_none]

theorem passReport_rdata (r : Run) : (passReport r).rdata = if r.op = 6#4 then r.value else 0#16 := by
  simp [passReport, returnsWord]

theorem passReport_ident (r : Run) : (passReport r).ident = if r.op = 7#4 then r.ident else none := by
  simp [passReport, returnsIdentity]

theorem passReport_resp (r : Run) :
    (passReport r).resp = if r.op = 3#4 ∨ r.op = 4#4 then r.buf.take respCap else [] := by
  simp [passReport, returnsBytes]

theorem reportedFtWarn_iff (r : Run) : reportedFtWarn r = true ↔ r.op = 14#4 ∧ r.ftw = true := by
  simp [reportedFtWarn]

/-- The report of a Pass agrees with R21, R25 to R29, R262 and R263: it carries a value of the operation's own kind
only. -/
theorem State.pass_reportCoherent {s : State} {r : Run} (hop : r.op = s.lastOp) : (s.pass r).reportCoherent := by
  have hvalid : ∀ {P : Prop}, (r.op = 6#4 ∨ (r.op = 7#4 ∧ r.ident ≠ none) → P) → (s.pass r).valid = true → P :=
    fun h hv => h ((passReport_valid_iff r).mp hv)
  refine ⟨⟨fun _ => rfl, fun _ => rfl⟩, ⟨nofun, nofun⟩, ⟨nofun, nofun⟩, fun h => absurd rfl h, ?valid, ?ftWarn, ?rdata,
    ?idLens, ?respLen⟩
  case valid =>
    intro hv
    rcases (passReport_valid_iff r).mp hv with h6 | ⟨h7, -⟩
    · exact ⟨rfl, .inl (hop.symm.trans h6)⟩
    · exact ⟨rfl, .inr (hop.symm.trans h7)⟩
  case ftWarn => exact fun hw => hop.symm.trans ((reportedFtWarn_iff r).mp hw).1
  case rdata =>
    intro hne
    have h6 : r.op = 6#4 := by
      by_contra h6
      exact hne ((passReport_rdata r).trans (if_neg h6))
    exact ⟨(passReport_valid_iff r).mpr (.inl h6), hop.symm.trans h6⟩
  case idLens =>
    intro hne
    cases hid : (passReport r).ident with
    | none => exact absurd (by rw [State.pass, State.commit_idLens, hid]) hne
    | some i =>
      have h7 : r.op = 7#4 ∧ r.ident = some i := by simpa [passReport_ident] using hid
      exact ⟨(passReport_valid_iff r).mpr (.inr ⟨h7.1, by simp [h7.2]⟩), hop.symm.trans h7.1⟩
  case respLen =>
    intro hne
    by_cases h34 : r.op = 3#4 ∨ r.op = 4#4
    · exact ⟨rfl, hop ▸ h34⟩
    · refine absurd ?_ hne
      rw [State.pass, State.commit_respLen, passReport_resp, if_neg h34]
      rfl

/-- The report of a Fail agrees with R21, R25 to R29, R262 and R263. -/
theorem State.completeFail_reportCoherent {s : State} {r : Run} (hop : r.op = s.lastOp) (f : Failure) :
    (s.completeFail r f).reportCoherent := by
  refine ⟨?result, ?transport, ?refused, ?failAddr, nofun, ?ftWarn, fun h => absurd rfl h, fun h => absurd rfl h,
    fun h => absurd rfl h⟩
  case ftWarn => exact fun hw => hop.symm.trans ((reportedFtWarn_iff r).mp hw).1
  all_goals
    cases f <;> simp [State.completeFail, failReport, Failure.reason, Failure.err, Failure.rep]

theorem State.pass_coherent {s : State} {r : Run} (h : s.Coherent) (hs : s.seq = some r) : (s.pass r).Coherent := by
  refine State.commit_coherent h.fifo (fun i hi => ?_) ?_ (State.pass_reportCoherent (h.lastOp r hs))
  · rw [passReport_ident] at hi
    split at hi
    · exact h.ident r i hs hi
    · nomatch hi
  · rw [passReport_resp]
    split
    · exact List.length_take_le _ _
    · exact Nat.zero_le _

theorem State.completeFail_coherent {s : State} {r : Run} (hop : r.op = s.lastOp) (hf : s.fifoWithinDepth) (f : Failure) :
    (s.completeFail r f).Coherent :=
  State.commit_coherent hf nofun (Nat.zero_le _) (State.completeFail_reportCoherent hop f)

/-! ## Steps -/

/-- A state whose running operation has gone on. -/
theorem State.Coherent.moved {s t : State} {r : Run} (h : s.Coherent) (hs : s.seq = some r) (hm : Moved s r t) :
    t.Coherent := by
  obtain ⟨r', stream, rx, held, now, tx, txPending, rfl, hop, -, -, hrx, hid⟩ := hm.goes
  have hdone : s.done = false := h.notBoth (by simp [hs])
  exact {
    window := h.window
    placed := h.placed
    notBoth := fun _ => hdone
    lastOp := fun r'' hr => by cases hr; exact hop.trans (h.lastOp r hs)
    ident := fun r'' i hr hi => by
      cases hr
      rcases hid with hsame | ⟨j, hj, hfits⟩
      · exact h.ident r i hs (hsame ▸ hi)
      · cases hj.symm.trans hi
        exact hfits
    cleared := h.cleared
    reported := h.reported
    respBound := h.respBound
    fifo := fun n hn => hrx.trans (h.fifo n hn) }

/-- One step of the running operation. -/
theorem State.Coherent.advance {s : State} (h : s.Coherent) (hb : s.busy = true) (d : Draw) : (s.advance d).Coherent := by
  obtain ⟨r, hs⟩ := s.busy_iff.mp hb
  rcases State.advance_cases hs d with hm | hp | ⟨r', f, hop, -, hf⟩
  · exact h.moved hs hm
  · exact hp ▸ State.pass_coherent h hs
  · exact hf ▸ State.completeFail_coherent (hop.trans (h.lastOp r hs)) h.fifo f

/-- Settles O16. -/
theorem resetStateIsCoherent : Obligations.ResetStateIsCoherent where
  window := Memory.wf_nil
  placed := nofun
  notBoth := nofun
  lastOp := nofun
  ident := nofun
  cleared _ := ⟨rfl, rfl, rfl, rfl, rfl⟩
  reported := nofun
  respBound := Nat.zero_le _
  fifo := nofun

theorem State.blockReset_coherent (s : State) (k : Nat) : (s.blockReset k).Coherent :=
  State.Coherent.of_reported resetStateIsCoherent rfl (fun _ _ => Nat.zero_le _)

/-- One step of the block. -/
theorem State.Coherent.tick {s : State} (h : s.Coherent) : s.tick.Coherent := by
  rcases s.tick_cases with ⟨-, ht⟩ | ⟨-, -, -, ht⟩ | ⟨i, v, -, -, hb, ht⟩ | ⟨hb, -, ht⟩ <;> rw [ht]
  · exact h.environment
  · exact State.blockReset_coherent _ _
  · exact (h.environment.dropMeddle.writeBusy i v).advance (by simpa using hb) _
  · exact h.environment.dropMeddle.advance (by simpa using hb) _

/-- An acceptance by an idle block. -/
theorem State.Coherent.accept {s : State} (h : s.Coherent) (q : Word) (todo : List Act) : (s.accept q todo).Coherent where
  window := h.window
  placed := h.placed
  notBoth _ := rfl
  lastOp r hr := by cases hr; rfl
  ident r i hr hi := by cases hr; nomatch hi
  cleared _ := ⟨rfl, rfl, rfl, rfl, rfl⟩
  reported hd := nomatch hd
  respBound := h.respBound
  fifo := h.fifo

/-- The positions and the bytes of a running operation may change. -/
theorem State.Coherent.withRun {s : State} {r r' : Run} (h : s.Coherent) (hs : s.seq = some r) (hop : r'.op = r.op)
    (hid : r'.ident = r.ident) : ({ s with seq := some r' } : State).Coherent :=
  h.moved hs (s.goOn_moved r r' hop (.inl hid))

/-- One instruction. -/
theorem State.Coherent.effect {s t : State} (h : s.Coherent) (he : Effect s t) : t.Coherent := by
  cases he with
  | rejected _ => exact h.of_reported rfl h.fifo
  | refused _ q => exact State.completeFail_coherent (s := s.accept q []) (r := startRun (opField q) []) rfl h.fifo _
  | ran _ q todo => exact runToIdle_keeps (P := State.Coherent) (fun _ => State.Coherent.tick) _ (h.accept q todo)
  | framed r hs todo k =>
    exact runFrame_keeps (P := State.Coherent) (fun _ => State.Coherent.tick) _ k
      (h.withRun (r' := { r with todo := todo }) hs rfl rfl).tick
  | parsed r hs buf => exact (h.withRun (r' := { r with buf := buf }) hs rfl rfl).tick
  | arrived bs => exact h.of_reported (s.arrive_reported bs) (State.arrive_fifoWithinDepth h.fifo bs)

/-- Settles O15: each effect a step can have keeps the invariant. -/
theorem stepKeepsCoherence : Obligations.StepKeepsCoherence := by
  intro s t h hstep
  obtain ⟨u, hu, he⟩ := step_effect s
  obtain rfl : u = t := Host.Outcome.next.inj (hu.symm.trans hstep)
  cases he with
  | instr he => exact h.effect he
  | hostRequest host he => exact (h.of_reported rfl h.fifo : State.Coherent { s with host := host }).effect he
  | hostWrite host i v =>
    exact h.of_reported (State.writeConfig_reported _ i v) (fun n hn => by simpa using h.fifo n (by simpa using hn))
  | hostWait host ms => exact h.environment.of_reported rfl h.environment.fifo
  | hostReset host k => exact State.blockReset_coherent _ k
  | ticked => exact h.tick

end Sys2Proof.Machine

/-! SUPPORT. What one step of the machine runs, by what the block is at (R32, R91, R141, R166). -/

namespace Sys2Proof.Machine

/-- The host writes a request to the idle block (R91). -/
theorem step_of_request {s : State} {v : Word} {h : List HostAccess} (hs : s.seq = none)
    (hh : s.host = .write opreqIndex v :: h) : step s = exec (decodeRequest v) { s with host := h } := by
  simp only [step, State.fetch, hs, State.fetchIdle, hh, if_pos]

/-- The host writes another register of the idle block (R20). -/
theorem step_of_hostWrite {s : State} {i : BitVec 10} {v : Word} {h : List HostAccess} (hs : s.seq = none)
    (hi : i ≠ opreqIndex) (hh : s.host = .write i v :: h) :
    step s = .next ({ s with host := h }.writeConfig i v) := by
  simp only [step, State.fetch, hs, State.fetchIdle, hh, if_neg hi]

/-- The host lets time pass. -/
theorem step_of_hostWait {s : State} {ms : Nat} {h : List HostAccess} (hs : s.seq = none) (hh : s.host = .wait ms :: h) :
    step s = .next { s.environment with host := h, now := s.environment.now + ms } := by
  simp only [step, State.fetch, hs, State.fetchIdle, hh]

/-- The host resets the idle block (R301). -/
theorem step_of_hostReset {s : State} {h : List HostAccess} (hs : s.seq = none) (hh : s.host = .reset :: h) :
    step s = .next ({ s.environment with host := h }.blockReset s.nextDraw.resetSends) := by
  simp only [step, State.fetch, hs, State.fetchIdle, hh]

/-- The host leaves the idle block alone. -/
theorem step_of_hostQuiet {s : State} (hs : s.seq = none) (hh : s.host = []) : step s = .next s.tick := by
  simp only [step, State.fetch, hs, State.fetchIdle, hh]

/-- The running operation is at a frame (R141). -/
theorem step_of_frame {s : State} {r : Run} {c : Command} {rep : Byte} {rest : List Act} (hs : s.seq = some r)
    (hr : r.todo = .frame c rep :: rest) : step s = exec (commandInstr c) s := by
  simp only [step, State.fetch, hs, State.fetchRunning, hr]

/-- The running operation is at its parser with a whole response (R166). -/
theorem step_of_parse {s : State} {r : Run} {rep : Byte} {rest : List Act} {e m l t : Byte} {more : List Byte}
    (hs : s.seq = some r) (hr : r.todo = .parse rep :: rest) (hb : r.buf = e :: m :: l :: t :: more) :
    step s = exec (.readResponse e m l t) s := by
  simp only [step, State.fetch, hs, State.fetchRunning, hr, hb]

/-- The running operation is at any other position (R32). -/
theorem step_of_running {s : State} {r : Run} (hs : s.seq = some r) (hf : ∀ c rep rest, r.todo ≠ .frame c rep :: rest)
    (hp : ∀ rep rest, r.todo = .parse rep :: rest → r.buf.length < 4) : step s = .next s.tick := by
  have hdone : s.fetchRunning r = .done s.tick := by
    unfold State.fetchRunning
    split
    · exact absurd ‹_› (hf _ _ _)
    · have hlen := hp _ _ ‹_›
      split
      · rename_i hb
        rw [hb] at hlen
        exact absurd hlen (by simp)
      · rfl
    · rfl
  simp only [step, State.fetch, hs, hdone]

/-- A busy block runs an instruction of its operation, or one step of its sequencer. -/
theorem step_of_busy {s : State} (hb : s.busy = true) : (∃ i, step s = exec i s) ∨ step s = .next s.tick := by
  obtain ⟨r, hs⟩ := s.busy_iff.mp hb
  by_cases hf : ∃ c rep rest, r.todo = .frame c rep :: rest
  · obtain ⟨c, rep, rest, hr⟩ := hf
    exact .inl ⟨_, step_of_frame hs hr⟩
  by_cases hp : ∀ rep rest, r.todo = .parse rep :: rest → r.buf.length < 4
  · exact .inr (step_of_running hs (fun c rep rest hr => hf ⟨c, rep, rest, hr⟩) hp)
  · push Not at hp
    obtain ⟨rep, rest, hr, hlen⟩ := hp
    match hb : r.buf, hlen with
    | e :: m :: l :: t :: more, _ => exact .inl ⟨_, step_of_parse hs hr hb⟩

/-- Settles O5: the decoder of each format gives the instruction that the step runs. -/
theorem stepRunsTheDecodedInstruction : Obligations.StepRunsTheDecodedInstruction := by
  refine ⟨fun s v h i hs hh hi => ?_, fun s r c rep rest i hs hr hi => ?_, fun s r rep rest i hs hr hi => ?_,
    fun s r hs hf hp => step_of_running hs hf hp⟩
  · cases hi
    exact step_of_request hs hh
  · rw [decodeAs, if_pos (Laws.commandWord_term c), wordCommand_commandWord] at hi
    cases hi
    exact step_of_frame hs hr
  · unfold decodeBytes at hi
    split at hi
    · cases hi
      exact step_of_parse hs hr ‹_›
    · nomatch hi

end Sys2Proof.Machine

/-! SUPPORT. What every step without a block reset leaves alone: the configuration, the parameters, the order of the TX
trace and of time (R14, R16, R23). -/

namespace Sys2Proof.Machine

/-- `t` comes after `s` with no block reset between them, and with no request accepted. -/
structure Onward (s t : State) : Prop where
  opreq : t.opreq = s.opreq
  cfgBaud : t.cfgBaud = s.cfgBaud
  cfgReadTimeout : t.cfgReadTimeout = s.cfgReadTimeout
  cfgPort : t.cfgPort = s.cfgPort
  cmds : t.cmds = s.cmds
  host : t.host = s.host
  params : t.params = s.params
  now : s.now ≤ t.now
  tx : ∃ sent, t.tx = s.tx ++ sent
  meddle : ∀ a ∈ t.meddle, a ∈ s.meddle

theorem Onward.refl (s : State) : Onward s s :=
  ⟨rfl, rfl, rfl, rfl, rfl, rfl, rfl, Nat.le_refl _, ⟨[], (List.append_nil _).symm⟩, fun _ h => h⟩

theorem Onward.trans {s t u : State} (h : Onward s t) (h' : Onward t u) : Onward s u := by
  obtain ⟨sent, hsent⟩ := h.tx
  obtain ⟨sent', hsent'⟩ := h'.tx
  exact ⟨h'.opreq.trans h.opreq, h'.cfgBaud.trans h.cfgBaud, h'.cfgReadTimeout.trans h.cfgReadTimeout,
    h'.cfgPort.trans h.cfgPort, h'.cmds.trans h.cmds, h'.host.trans h.host, h'.params.trans h.params,
    h.now.trans h'.now, ⟨sent ++ sent', by rw [hsent', hsent, List.append_assoc]⟩, fun a ha => h.meddle a (h'.meddle a ha)⟩

theorem Onward.noReset {s t : State} (h : Onward s t) (hs : s.noReset) : t.noReset :=
  fun a ha => hs a (h.meddle a ha)

/-- A state whose TX trace, parameters and configuration are those of `s`. -/
theorem Onward.of_same {s t : State} (hreg : (t.opreq, t.cfgBaud, t.cfgReadTimeout, t.cfgPort, t.cmds) =
    (s.opreq, s.cfgBaud, s.cfgReadTimeout, s.cfgPort, s.cmds)) (hin : (t.host, t.params, t.tx) = (s.host, s.params, s.tx))
    (hnow : s.now ≤ t.now) (hm : ∀ a ∈ t.meddle, a ∈ s.meddle) : Onward s t := by
  simp only [Prod.mk.injEq] at hreg hin
  obtain ⟨hopreq, hbaud, htimeout, hport, hcmds⟩ := hreg
  obtain ⟨hhost, hparams, htx⟩ := hin
  exact ⟨hopreq, hbaud, htimeout, hport, hcmds, hhost, hparams, hnow, ⟨[], by rw [htx, List.append_nil]⟩, hm⟩

theorem Onward.environment (s : State) : Onward s s.environment :=
  .of_same (by simp) (by simp) (by simp) (by simp)

theorem Onward.dropMeddle (s : State) : Onward s s.dropMeddle :=
  .of_same rfl rfl (Nat.le_refl _) (fun _ ha => List.mem_of_mem_tail ha)

theorem Onward.writeBusy (s : State) (i : BitVec 10) (v : Word) : Onward s (s.writeBusy i v) :=
  .of_same (by simp) (by simp) (by simp) (by simp)

/-- The next step of the running operation. -/
theorem Onward.advance {s : State} (hb : s.busy = true) (d : Draw) : Onward s (s.advance d) := by
  obtain ⟨r, hs⟩ := s.busy_iff.mp hb
  rcases State.advance_cases hs d with hm | hp | ⟨r', f, -, -, hf⟩
  · obtain ⟨r', stream, rx, held, now, tx, txPending, hm, -, hnow, htx, -⟩ := hm.goes
    rw [hm]
    refine ⟨rfl, rfl, rfl, rfl, rfl, rfl, rfl, hnow, ?_, fun _ h => h⟩
    rcases htx with htx | ⟨b, htx⟩
    · exact ⟨[], htx.trans (List.append_nil _).symm⟩
    · exact ⟨[b], htx⟩
  · exact hp ▸ .of_same rfl rfl (Nat.le_refl _) (fun _ h => h)
  · exact hf ▸ .of_same rfl rfl (Nat.le_refl _) (fun _ h => h)

/-- One step of the block that is no block reset. -/
theorem Onward.tick_of_head {s : State} (hs : ∀ m, s.meddle ≠ .reset :: m) : Onward s s.tick := by
  have henv := (Onward.environment s).trans (.dropMeddle s.environment)
  rcases s.tick_cases with ⟨-, ht⟩ | ⟨m, hm, -, -⟩ | ⟨i, v, -, -, hb, ht⟩ | ⟨hb, -, ht⟩
  · exact ht ▸ .environment s
  · exact absurd hm (hs m)
  · exact ht ▸ (henv.trans (.writeBusy _ i v)).trans (.advance (by simpa using hb) _)
  · exact ht ▸ henv.trans (.advance (by simpa using hb) _)

theorem Onward.tick {s : State} (hs : s.noReset) : Onward s s.tick :=
  .tick_of_head fun m hm => hs .reset (by simp [hm]) rfl

theorem Onward.runToIdle {s : State} (hs : s.noReset) (n : Nat) : Onward s (runToIdle n s) :=
  runToIdle_keeps (P := Onward s) (fun _ h => h.trans (.tick (h.noReset hs))) n (.refl s)

theorem Onward.runFrame {s : State} (hs : s.noReset) (n k : Nat) : Onward s (runFrame n k s) :=
  runFrame_keeps (P := Onward s) (fun _ h => h.trans (.tick (h.noReset hs))) n k (.refl s)

/-- One instruction, which may accept a request. -/
theorem Onward.effect {s t : State} (hs : s.noReset) (he : Effect s t) : Onward { s with opreq := t.opreq } t := by
  cases he with
  | rejected _ => exact .of_same rfl rfl (Nat.le_refl _) (fun _ h => h)
  | refused _ q => exact .of_same rfl rfl (Nat.le_refl _) (fun _ h => h)
  | ran _ q todo =>
    have hrun := Onward.runToIdle (s := s.accept q todo) hs tickFuel
    exact ⟨rfl, hrun.cfgBaud, hrun.cfgReadTimeout, hrun.cfgPort, hrun.cmds, hrun.host, hrun.params, hrun.now, hrun.tx,
      hrun.meddle⟩
  | framed r _ todo k =>
    have htick := Onward.tick (s := { s with seq := some { r with todo := todo } }) hs
    have hrun := htick.trans (.runFrame (htick.noReset hs) tickFuel k)
    exact ⟨rfl, hrun.cfgBaud, hrun.cfgReadTimeout, hrun.cfgPort, hrun.cmds, hrun.host, hrun.params, hrun.now, hrun.tx,
      hrun.meddle⟩
  | parsed r _ buf =>
    have hrun := Onward.tick (s := { s with seq := some { r with buf := buf } }) hs
    exact ⟨rfl, hrun.cfgBaud, hrun.cfgReadTimeout, hrun.cfgPort, hrun.cmds, hrun.host, hrun.params, hrun.now, hrun.tx,
      hrun.meddle⟩
  | arrived bs => exact .of_same (by simp) (by simp) (by simp) (by simp)

/-- Settles O19. -/
theorem operationsKeepTheConfiguration : Obligations.OperationsKeepTheConfiguration := by
  intro i s hs
  obtain ⟨t, ht, he⟩ := exec_effect i s
  have h := Onward.effect hs he
  exact ⟨t, ht, h.cfgBaud, h.cfgReadTimeout, h.cfgPort, h.cmds, h.host⟩

/-- A step that runs an instruction. -/
theorem Onward.tx_of_exec {i : Instr} {s t : State} (hs : s.noReset) (hi : exec i s = .next t) :
    ∃ sent, t.tx = s.tx ++ sent := by
  obtain ⟨u, hu, he⟩ := exec_effect i s
  obtain rfl : u = t := Host.Outcome.next.inj (hu.symm.trans hi)
  exact (Onward.effect hs he).tx

/-- Settles O18: an instruction and a step of the sequencer hand bytes over or do not; a host's access to the idle block
hands over none. -/
theorem txTraceOnlyGrows : Obligations.TxTraceOnlyGrows := by
  intro s t hs hh hstep
  have same : ∀ u : State, step s = .next u → u.tx = s.tx → ∃ sent, t.tx = s.tx ++ sent := fun u hu htx => by
    obtain rfl : u = t := Host.Outcome.next.inj (hu.symm.trans hstep)
    exact ⟨[], by rw [htx, List.append_nil]⟩
  have ticked : step s = .next s.tick → ∃ sent, t.tx = s.tx ++ sent := fun hu => by
    obtain rfl : s.tick = t := Host.Outcome.next.inj (hu.symm.trans hstep)
    exact (Onward.tick hs).tx
  cases hseq : s.seq with
  | some r =>
    rcases step_of_busy (s := s) (by simp [hseq]) with ⟨i, hi⟩ | htick
    · exact Onward.tx_of_exec hs (hi.symm.trans hstep)
    · exact ticked htick
  | none =>
    match hhost : s.host with
    | [] => exact ticked (step_of_hostQuiet hseq hhost)
    | .reset :: h => exact absurd hhost (hh h)
    | .wait ms :: h => exact same _ (step_of_hostWait hseq hhost) (by simp)
    | .write i v :: h =>
      by_cases hi : i = opreqIndex
      · subst hi
        exact Onward.tx_of_exec (s := { s with host := h }) hs ((step_of_request hseq hhost).symm.trans hstep)
      · exact same _ (step_of_hostWrite hseq hi hhost) (by simp)

/-! ## Time and the parameters, block resets included -/

/-- `t` is not before `s`, and is the same machine. -/
def Paced (s t : State) : Prop := s.now ≤ t.now ∧ t.params = s.params

theorem Paced.refl (s : State) : Paced s s := ⟨Nat.le_refl _, rfl⟩

theorem Paced.trans {s t u : State} (h : Paced s t) (h' : Paced t u) : Paced s u :=
  ⟨h.1.trans h'.1, h'.2.trans h.2⟩

theorem Onward.paced {s t : State} (h : Onward s t) : Paced s t := ⟨h.now, h.params⟩

theorem Paced.tick (s : State) : Paced s s.tick := by
  rcases s.tick_cases with ⟨hs, ht⟩ | ⟨m, -, -, ht⟩ | ⟨i, v, m, hm, -, -⟩ | ⟨-, hm, -⟩
  · exact ht ▸ (Onward.environment s).paced
  · rw [ht]
    exact ⟨by simp, by simp⟩
  · exact (Onward.tick_of_head (by simp [hm])).paced
  · refine (Onward.tick_of_head fun m' h' => ?_).paced
    rcases hm with ⟨m, hm⟩ | hm
    · nomatch hm.symm.trans h'
    · nomatch hm.symm.trans h'

theorem Paced.effect {s t : State} (he : Effect s t) : Paced s t := by
  cases he with
  | rejected _ => exact .refl s
  | refused _ q => exact .refl s
  | ran _ q todo =>
    exact runToIdle_keeps (P := Paced s) (fun u h => h.trans (.tick u)) tickFuel (s := s.accept q todo) (.refl s)
  | framed r _ todo k =>
    exact runFrame_keeps (P := Paced s) (fun u h => h.trans (.tick u)) tickFuel k
      (Paced.tick { s with seq := some { r with todo := todo } })
  | parsed r _ buf => exact Paced.tick { s with seq := some { r with buf := buf } }
  | arrived bs => exact ⟨by simp, by simp⟩

/-- Settles O17: each effect a step can have lets time pass or not, and keeps the parameters. -/
theorem timeAndParameters : Obligations.TimeAndParameters := by
  intro s
  obtain ⟨t, ht, he⟩ := step_effect s
  refine ⟨t, ht, ?_⟩
  cases he with
  | instr he => exact Paced.effect he
  | hostRequest host he => exact Paced.effect (s := { s with host := host }) he
  | hostWrite host i v => exact ⟨by simp, by simp⟩
  | hostWait host ms => exact ⟨by simp; omega, by simp⟩
  | hostReset host k => exact ⟨by simp, by simp⟩
  | ticked => exact Paced.tick s

end Sys2Proof.Machine

/-! SUPPORT. OPREQ, REJECT and what the host does next are not looked at by the environment or the running operation (R23,
R33, R35). -/

namespace Sys2Proof.Machine

/-- The block with OPREQ, REJECT and the host's next accesses changed. -/
def State.marked (f : Word → Word) (g : Bool → Bool) (h : List BusyAccess → List BusyAccess) (s : State) : State :=
  { s with opreq := f s.opreq, reject := g s.reject, meddle := h s.meddle }

section
variable (f : Word → Word) (g : Bool → Bool) (h : List BusyAccess → List BusyAccess) (s : State)

@[simp] theorem State.marked_seq : (s.marked f g h).seq = s.seq := rfl
@[simp] theorem State.marked_stream : (s.marked f g h).stream = s.stream := rfl
@[simp] theorem State.marked_params : (s.marked f g h).params = s.params := rfl
@[simp] theorem State.marked_rx : (s.marked f g h).rx = s.rx := rfl
@[simp] theorem State.marked_now : (s.marked f g h).now = s.now := rfl
@[simp] theorem State.marked_script : (s.marked f g h).script = s.script := rfl

@[simp] theorem State.marked_nextDraw : (s.marked f g h).nextDraw = s.nextDraw := rfl

theorem State.marked_dropDraw : (s.marked f g h).dropDraw = s.dropDraw.marked f g h := by
  simp only [State.dropDraw, State.marked_script]
  split <;> rfl

theorem State.marked_arrive (bs : List Byte) : (s.marked f g h).arrive bs = (s.arrive bs).marked f g h := by
  cases ho : s.stream.isOpen with
  | false => rw [State.arrive_closed ho, State.arrive_closed (s := s.marked f g h) ho]
  | true =>
    cases hd : s.params.rxFifoDepth with
    | none => rw [State.arrive_unbounded ho hd, State.arrive_unbounded (s := s.marked f g h) ho hd]; rfl
    | some n => cases hv : s.params.rxOverflow <;> simp [State.arrive, State.marked, ho, hd, hv]

theorem State.marked_environment : (s.marked f g h).environment = s.environment.marked f g h := by
  simp only [State.environment, State.marked_dropDraw, State.marked_nextDraw, State.marked_now]
  exact State.marked_arrive f g h { s.dropDraw with now := s.now + s.nextDraw.elapsed } s.nextDraw.arrivals

theorem State.marked_failWith (r : Run) (e : Failure) :
    (s.marked f g h).failWith r e = (s.failWith r e).marked f g h := by
  unfold State.failWith
  split <;> rfl

theorem State.marked_act (r : Run) (d : Draw) (a : Act) : (s.marked f g h).act r d a = (s.act r d a).marked f g h := by
  have fails := s.marked_failWith f g h
  cases a with
  | openStream =>
    simp only [State.act, State.openStream, State.marked_stream, fails]
    split
    · rfl
    · split <;> rfl
  | closeStream => rfl
  | frame c rep =>
    simp only [State.act, State.startFrame, State.marked_stream, fails]
    split <;> rfl
  | tx b rep =>
    simp only [State.act, State.txByte, fails]
    split <;> rfl
  | flush len rep =>
    simp only [State.act, State.flushTx, fails]
    split <;> rfl
  | rx need last rep =>
    cases need with
    | zero => rfl
    | succ n =>
      simp only [State.act, State.rxByte, State.marked_rx, State.marked_stream, State.marked_now, fails]
      split
      · rfl
      · split <;> rfl
  | sleep ms => rfl
  | parse rep =>
    simp only [State.act, State.parseResponse, fails]
    split <;> rfl
  | verifyClear mask =>
    simp only [State.act, fails]
    split <;> rfl
  | confirmSet mask =>
    simp only [State.act, fails]
    split <;> rfl
  | keepWord => rfl
  | decodeIdentity =>
    simp only [State.act, State.decodeIdentity, State.marked_params, fails]
    split <;> rfl
  | pollStart p => rfl
  | pollCheck p start =>
    simp only [State.act, State.checkPoll, State.marked_now, State.marked_params, fails]
    split <;> rfl
  | pollTest p start =>
    simp only [State.act, State.testPoll]
    split <;> rfl
  | enter gd => rfl
  | leave gd => rfl

theorem State.marked_advance (d : Draw) : (s.marked f g h).advance d = (s.advance d).marked f g h := by
  simp only [State.advance, State.marked_seq]
  split
  · rfl
  · split
    · rfl
    · exact State.marked_act f g h s _ d _

end

/-! ## Writes to the busy block (R23, R35, R272) -/

theorem State.marked_write_opreq (s : State) :
    s.marked id (fun b => b || opreqIndex == opreqIndex) id = { s with reject := true } := by
  simp [State.marked]

theorem State.marked_write_other {i : BitVec 10} (hi : i ≠ opreqIndex) (s : State) :
    s.marked id (fun b => b || i == opreqIndex) id = s := by
  simp [State.marked, beq_false_of_ne hi]

/-- A write to the busy block at a step: the step is that of a quiet host, with REJECT raised by a write to OPREQ. -/
theorem State.tick_write {s : State} (hb : s.busy = true) (i : BitVec 10) (v : Word) (m : List BusyAccess) :
    ({ s with meddle := .write i v :: m } : State).tick =
      ({ s with meddle := .quiet :: m } : State).tick.marked id (fun b => b || i == opreqIndex) id := by
  obtain ⟨r, hs⟩ := s.busy_iff.mp hb
  have henv : ∀ a : BusyAccess, ({ s with meddle := a :: m } : State).environment.dropMeddle =
      s.environment.marked id id (fun _ => m) := fun a =>
    congrArg State.dropMeddle (s.marked_environment id id (fun _ => a :: m))
  have hwrite : ({ s with meddle := .write i v :: m } : State).tick =
      ((s.environment.marked id id (fun _ => m)).writeBusy i v).advance s.nextDraw := by
    rw [← henv (.write i v)]
    simp only [State.tick, hs]
    rfl
  have hquiet : ({ s with meddle := .quiet :: m } : State).tick =
      (s.environment.marked id id (fun _ => m)).advance s.nextDraw := by
    rw [← henv .quiet]
    simp only [State.tick, hs]
    rfl
  have hmark : ∀ u : State, u.writeBusy i v = u.marked id (fun b => b || i == opreqIndex) id := fun u => by
    rcases u.writeBusy_cases i v with ⟨rfl, hw⟩ | ⟨hne, hw⟩
    · rw [hw, State.marked_write_opreq]
      rfl
    · rw [hw, State.marked_write_other hne]
  rw [hwrite, hquiet, hmark, State.marked_advance]

/-- Settles O13: the write is the only thing that tells the two steps apart. -/
theorem hostWritesWhileBusy : Obligations.HostWritesWhileBusy := by
  intro s i v m hb
  refine ⟨?_, fun hi => ?_⟩
  · rw [State.tick_write hb]
    exact State.marked_write_opreq _
  · rw [State.tick_write hb]
    exact State.marked_write_other hi _

/-! ## Requests that differ in ignored fields (R92) -/

/-- The block with OPREQ forgotten. -/
def State.forget (s : State) : State := s.marked (fun _ => 0#32) id id

theorem State.forget_writeBusy (s : State) (i : BitVec 10) (v : Word) :
    s.forget.writeBusy i v = (s.writeBusy i v).forget := by
  unfold State.writeBusy
  split <;> rfl

/-- A step does not look at OPREQ. -/
theorem State.forget_tick (s : State) : s.forget.tick = s.tick.forget := by
  have henv : s.forget.environment = s.environment.forget := s.marked_environment _ _ _
  have hadv : ∀ (u : State) (d : Draw), u.forget.advance d = (u.advance d).forget := fun u => u.marked_advance _ _ _
  have hdrop : s.environment.forget.dropMeddle = s.environment.dropMeddle.forget := rfl
  simp only [State.tick, henv, hdrop, show s.forget.seq = s.seq from rfl, show s.forget.meddle = s.meddle from rfl,
    show s.forget.nextDraw = s.nextDraw from rfl]
  split
  · rfl
  · split
    · rfl
    · rw [State.forget_writeBusy, hadv]
    · exact hadv _ _
    · exact hadv _ _

theorem State.forget_runToIdle (n : Nat) (s : State) : runToIdle n s.forget = (runToIdle n s).forget := by
  induction n generalizing s with
  | zero => rfl
  | succ n ih =>
    simp only [runToIdle, show s.forget.busy = s.busy from rfl]
    split
    · rw [State.forget_tick, ih]
    · rfl

/-- Two requests of one operation lead to states that differ at most in OPREQ. -/
theorem State.request_forget (s : State) {q q' : Word} (hop : opField q = opField q') (todo : List Act) :
    (s.request q todo).forget = (s.request q' todo).forget := by
  unfold State.request
  split
  · rfl
  · rw [← State.forget_runToIdle, ← State.forget_runToIdle]
    have haccept : (s.accept q todo).forget = (s.accept q' todo).forget := by
      simp only [State.accept, hop]
      rfl
    rw [haccept]

theorem State.illegalRequest_forget (s : State) {q q' : Word} (hop : opField q = opField q') :
    (s.illegalRequest q).forget = (s.illegalRequest q').forget := by
  unfold State.illegalRequest
  split
  · rfl
  · simp only [State.refuse_eq, State.reports, opField] at hop ⊢
    rw [hop]
    rfl

end Sys2Proof.Machine

/-! SUPPORT. Each request row as the positions its operation runs, and what these have in common: requests that differ in
ignored fields, and requests on a closed stream (R92, R94, R271). -/

namespace Sys2Proof.Machine

/-- The positions of a request's operation; `none` for a word that is refused, and for a row that is no request. -/
def State.requestActs (s : State) : Instr → Option (List Act)
  | .openStream _ _ => some [.openStream]
  | .closeStream _ _ => some [.closeStream]
  | .sendCommand len b2 b1 _ => some (sendActs ⟨len, b1, b2⟩)
  | .sendCommands _ n _ => if legalCount n then some (sendListActs (s.commandList n.toNat)) else none
  | .resetSensor _ _ => some resetSpellActs
  | .readRegisterWord _ address window => some (readRegisterActs s.params address window)
  | .detectIdentity _ _ => some (detectIdentityActs s.params)
  | .setUartAutoStart _ _ => some setUartAutoStartActs
  | .flashBackup _ _ => some (flashBackupActs s.params)
  | .flashTest _ _ => some (flashTestActs s.params)
  | .waitUntilReady timeout _ _ => some (waitUntilReadyActs timeout.toNat)
  | .softwareReset _ _ => some softwareResetActs
  | .exitAutoMode _ persist => some (exitAutoModeActs s.params (persist == 1#1))
  | .fullReset _ persist => some (fullResetActs s.params (persist == 1#1))
  | .configure _ _ => some (configureActs s.params)
  | _ => none

/-- The request word `q` with the positions of its operation, if it is legal (R33, R35, R102). -/
def State.runRequest (s : State) (q : Word) : Option (List Act) → State
  | some todo => s.request q todo
  | none => s.illegalRequest q

/-- A request row runs its positions (R94). -/
theorem exec_of_opreq {i : Instr} (hi : i.format = .opreq) (s : State) :
    exec i s = .next (s.runRequest (encode i) (s.requestActs i)) := by
  cases i
  case sendCommands hi n f =>
    simp only [exec, execSendCommands, State.requestActs]
    split <;> rfl
  case reservedOp0 | openStream | closeStream | sendCommand | resetSensor | readRegisterWord | detectIdentity
      | setUartAutoStart | flashBackup | flashTest | waitUntilReady | softwareReset | exitAutoMode | fullReset
      | configure => rfl
  all_goals nomatch hi

/-! ## Ignored fields (R92) -/

theorem format_withoutIgnored (i : Instr) : i.withoutIgnored.format = i.format := by cases i <;> rfl

theorem State.requestActs_withoutIgnored (s : State) (i : Instr) : s.requestActs i.withoutIgnored = s.requestActs i := by
  cases i <;> rfl

/-- Ignored fields do not hold the operation code (R91). -/
theorem opField_encode_withoutIgnored {i : Instr} (hi : i.format = .opreq) :
    opField (encode i.withoutIgnored) = opField (encode i) := by
  cases i
  case reservedOp0 w => rfl
  case openStream | closeStream | sendCommand | sendCommands | resetSensor | readRegisterWord | detectIdentity
      | setUartAutoStart | flashBackup | flashTest | waitUntilReady | softwareReset | exitAutoMode | fullReset
      | configure => exact (Laws.requestWord_op _ _ _).trans (Laws.requestWord_op _ _ _).symm
  all_goals nomatch hi

/-- Two request words of one operation lead to states that differ at most in OPREQ. -/
theorem State.runRequest_forget (s : State) {q q' : Word} (hop : opField q = opField q') (acts : Option (List Act)) :
    (s.runRequest q acts).forget = (s.runRequest q' acts).forget := by
  cases acts with
  | some todo => exact s.request_forget hop todo
  | none => exact s.illegalRequest_forget hop

/-- An idle block keeps the word of a request in OPREQ while no block reset comes (R33). -/
theorem State.runRequest_opreq {s : State} (hs : s.seq = none) (hr : s.noReset) (q : Word) (acts : Option (List Act)) :
    (s.runRequest q acts).opreq = q := by
  cases acts with
  | some todo =>
    rw [State.runRequest, State.request, if_neg (by simp [hs])]
    exact (Onward.runToIdle (s := s.accept q todo) hr tickFuel).opreq
  | none =>
    rw [State.runRequest, State.illegalRequest_of_idle hs]
    rfl

/-- Settles O21: the two requests run the same positions under words of one operation. -/
theorem ignoredFieldsDoNotMatter : Obligations.IgnoredFieldsDoNotMatter := by
  intro i j s hi hij
  have hj : j.format = .opreq := by rw [← format_withoutIgnored j, ← hij, format_withoutIgnored, hi]
  have hacts : s.requestActs i = s.requestActs j := by
    rw [← s.requestActs_withoutIgnored, hij, s.requestActs_withoutIgnored]
  have hop : opField (encode i) = opField (encode j) := by
    rw [← opField_encode_withoutIgnored hi, hij, opField_encode_withoutIgnored hj]
  refine ⟨_, _, exec_of_opreq hi s, exec_of_opreq hj s, ?_, fun hs hr =>
    ⟨State.runRequest_opreq hs hr _ _, State.runRequest_opreq hs hr _ _⟩⟩
  rw [hacts]
  exact s.runRequest_forget hop _

/-! ## Requests on a closed stream (R141, R271) -/

/-- A position that neither opens the stream nor hands a byte over without a check. -/
def Act.silent : Act → Bool
  | .openStream => false
  | .tx _ _ => false
  | _ => true

/-- A running operation on a closed stream that can neither open it nor send. -/
structure State.Silent (s : State) (tx : List Byte) : Prop where
  isOpen : s.stream.isOpen = false
  sent : s.tx = tx
  noReset : s.noReset
  todo : ∀ r, s.seq = some r → ∀ a ∈ r.todo, a.silent = true

/-- What stops a failure is followed by positions of the operation, or by a poll's next attempt. -/
theorem unwind_silent {l todo : List Act} {w : Bool} (h : ∀ a ∈ l, a.silent = true) (hu : unwind l = some (todo, w)) :
    ∀ a ∈ todo, a.silent = true := by
  rcases unwind_cases l with ⟨pre, p, start, rest, rfl, -, hpoll⟩ | ⟨pre, g, rest, rfl, -, hleave⟩ | hnone
  · rw [hpoll] at hu
    cases hu
    simp only [List.mem_append, List.mem_cons] at h ⊢
    rintro a (rfl | rfl | ha)
    · rfl
    · rfl
    · exact h a (.inr (.inr ha))
  · rw [hleave] at hu
    cases hu
    exact fun a ha => h a (by simp [ha])
  · nomatch hnone.symm.trans hu

/-- The parts that a position puts before the others are silent. -/
theorem attemptActs_silent (p : Params) (q : Poll) (start : Nat) : ∀ a ∈ attemptActs p q start, a.silent = true := by
  simp [attemptActs, readRegisterActs, Act.silent]

theorem guardActs_silent (p : Params) (g : Guard) : ∀ a ∈ guardActs p g, a.silent = true := by
  cases g <;> simp [guardActs, selectWindowActs, sendActs, waitUntilReadyActs, flashTestActs, writeWinActs, sendListActs,
    readRegisterActs, Act.silent]

section
variable {s : State} {tx : List Byte} {r : Run}

theorem State.Silent.goOn (h : s.Silent tx) (hr : ∀ a ∈ r.todo, a.silent = true) : (s.goOn r).Silent tx :=
  ⟨h.isOpen, h.sent, h.noReset, fun _ he => by cases he; exact hr⟩

theorem State.Silent.failWith (h : s.Silent tx) (hr : ∀ a ∈ r.todo, a.silent = true) (f : Failure) :
    (s.failWith r f).Silent tx := by
  rcases s.failWith_cases r f with ⟨todo, w, hu, hf⟩ | ⟨-, hf⟩
  · exact hf ▸ h.goOn (unwind_silent hr hu)
  · exact hf ▸ ⟨h.isOpen, h.sent, h.noReset, nofun⟩

/-- A silent position on a closed stream. -/
theorem State.Silent.act (h : s.Silent tx) (hr : ∀ a ∈ r.todo, a.silent = true) (d : Draw) {a : Act}
    (ha : a.silent = true) : (s.act r d a).Silent tx := by
  have cons : ∀ {b : Act} {r' : Run}, b.silent = true → r'.todo = b :: r.todo → (s.goOn r').Silent tx :=
    fun hb hr' => h.goOn (by rw [hr']; exact List.forall_mem_cons.mpr ⟨hb, hr⟩)
  have append : ∀ {l : List Act} {r' : Run}, (∀ b ∈ l, b.silent = true) → r'.todo = l ++ r.todo → (s.goOn r').Silent tx :=
    fun hl hr' => h.goOn (by rw [hr']; exact List.forall_mem_append.mpr ⟨hl, hr⟩)
  cases a with
  | openStream => nomatch ha
  | tx b rep => nomatch ha
  | closeStream => exact State.Silent.goOn (s := { s with stream := _, held := [] }) ⟨rfl, h.sent, h.noReset, h.todo⟩ hr
  | frame c rep =>
    simp only [State.act, State.startFrame, h.isOpen, Bool.false_eq_true, if_false]
    exact h.failWith hr _
  | flush len rep =>
    simp only [State.act, State.flushTx]
    split
    · exact h.failWith hr _
    · refine State.Silent.goOn (s := { s with txPending := 0 }) ⟨h.isOpen, h.sent, h.noReset, h.todo⟩ ?_
      split
      · exact hr
      · exact List.forall_mem_cons.mpr ⟨rfl, hr⟩
  | rx need last rep =>
    simp only [State.act, State.rxByte]
    split
    · exact h.goOn hr
    · split
      · refine State.Silent.goOn (s := { s with rx := _ }) ⟨h.isOpen, h.sent, h.noReset, h.todo⟩ ?_
        dsimp only
        split
        · exact hr
        · exact List.forall_mem_cons.mpr ⟨rfl, hr⟩
      · split
        · exact h.failWith hr _
        · exact cons rfl rfl
  | sleep ms => exact State.Silent.goOn (s := { s with now := _ }) ⟨h.isOpen, h.sent, h.noReset, h.todo⟩ hr
  | parse rep =>
    simp only [State.act, State.parseResponse]
    split
    · exact h.goOn hr
    · exact h.failWith hr _
  | verifyClear mask =>
    simp only [State.act]
    split
    · exact h.goOn hr
    · exact h.failWith hr _
  | confirmSet mask =>
    simp only [State.act]
    split
    · exact h.failWith hr _
    · exact h.goOn hr
  | keepWord => exact h.goOn hr
  | decodeIdentity =>
    simp only [State.act, State.decodeIdentity]
    split
    · exact h.goOn hr
    · exact h.failWith hr _
  | pollStart p => exact cons rfl rfl
  | pollCheck p start =>
    simp only [State.act, State.checkPoll]
    split
    · exact h.failWith hr _
    · exact append (attemptActs_silent _ p start) rfl
  | pollTest p start =>
    simp only [State.act, State.testPoll]
    split
    · exact h.goOn hr
    · exact append (l := [.sleep p.interval, .pollCheck p start]) (by simp [Act.silent]) rfl
  | enter g => exact append (guardActs_silent _ g) rfl
  | leave g => exact h.goOn hr

theorem State.Silent.advance (h : s.Silent tx) (d : Draw) : (s.advance d).Silent tx := by
  unfold State.advance
  split
  · exact h
  · rename_i r hs
    split
    · exact ⟨h.isOpen, h.sent, h.noReset, nofun⟩
    · rename_i a rest ht
      have htodo := h.todo r hs
      rw [ht] at htodo
      obtain ⟨ha, hrest⟩ := List.forall_mem_cons.mp htodo
      exact h.act hrest d ha

theorem State.Silent.environment (h : s.Silent tx) : s.environment.Silent tx :=
  ⟨by simpa using h.isOpen, by simpa using h.sent, (Onward.environment s).noReset h.noReset, by simpa using h.todo⟩

theorem State.Silent.dropMeddle (h : s.Silent tx) : s.dropMeddle.Silent tx :=
  ⟨h.isOpen, h.sent, (Onward.dropMeddle s).noReset h.noReset, h.todo⟩

theorem State.Silent.writeBusy (h : s.Silent tx) (i : BitVec 10) (v : Word) : (s.writeBusy i v).Silent tx :=
  ⟨by simpa using h.isOpen, by simpa using h.sent, (Onward.writeBusy s i v).noReset h.noReset, by simpa using h.todo⟩

theorem State.Silent.tick (h : s.Silent tx) : s.tick.Silent tx := by
  rcases s.tick_cases with ⟨-, ht⟩ | ⟨m, hm, -, -⟩ | ⟨i, v, -, -, -, ht⟩ | ⟨-, -, ht⟩
  · exact ht ▸ h.environment
  · exact absurd rfl (h.noReset .reset (by simp [hm]))
  · exact ht ▸ (h.environment.dropMeddle.writeBusy i v).advance _
  · exact ht ▸ h.environment.dropMeddle.advance _

end

/-- The frames of commands are silent. -/
theorem sendListActs_silent (cs : List Command) : ∀ a ∈ sendListActs cs, a.silent = true := by
  simp only [sendListActs, sendActs, List.mem_flatMap, List.mem_singleton]
  rintro a ⟨c, -, rfl⟩
  rfl

/-- Every request but OPEN is made of silent positions (R131). -/
theorem State.requestActs_silent (s : State) {i : Instr} (hi : ∀ hi f, i ≠ .openStream hi f) {todo : List Act}
    (ht : s.requestActs i = some todo) : ∀ a ∈ todo, a.silent = true := by
  cases i
  case openStream h f => exact absurd rfl (hi h f)
  case sendCommands h n f =>
    simp only [State.requestActs] at ht
    split at ht
    · cases ht
      exact sendListActs_silent _
    · nomatch ht
  case exitAutoMode h persist =>
    cases ht
    cases persist == 1#1 <;> exact List.all_eq_true.mp rfl
  case fullReset h persist =>
    cases ht
    cases persist == 1#1 <;> exact List.all_eq_true.mp rfl
  case closeStream | sendCommand | resetSensor | readRegisterWord | detectIdentity | setUartAutoStart | flashBackup
      | flashTest | waitUntilReady | softwareReset | configure =>
    cases ht
    exact List.all_eq_true.mp rfl
  all_goals nomatch ht

/-- Settles O20: the positions of the request are silent, and every step keeps the operation silent. -/
theorem closedStreamSendsNothing : Obligations.ClosedStreamSendsNothing := by
  intro i s hs hopen hr hi hne
  refine ⟨_, exec_of_opreq hi s, ?_⟩
  cases hacts : s.requestActs i with
  | none =>
    rw [State.runRequest, State.illegalRequest_of_idle hs]
    exact ⟨rfl, hopen⟩
  | some todo =>
    rw [State.runRequest, State.request, if_neg (by simp [hs])]
    have haccept : (s.accept (encode i) todo).Silent s.tx :=
      ⟨hopen, rfl, hr, fun _ he => by cases he; exact s.requestActs_silent hne hacts⟩
    have hrun := runToIdle_keeps (P := fun u => u.Silent s.tx) (fun _ => State.Silent.tick) tickFuel haccept
    exact ⟨hrun.sent, hrun.isOpen⟩

end Sys2Proof.Machine

/-! SUPPORT. The host window: what each word index reads, and what a write to the idle block changes (R19 to R31). -/

namespace Sys2Proof.Machine

/-! ## Registers -/

/-- The registers stand at word indexes 0x00 to 0x10, below the byte-string registers (R20). -/
theorem State.hostRead_register (s : State) {i : BitVec 10} (hi : i.toNat < 0x11) :
    s.hostRead i = s.registers.getD i.toNat 0#32 := by
  have hno : ¬ inByteString i.toNat = true := by simp [inByteString]; omega
  exact if_neg hno

/-- A byte-string register is read as little-endian words (R19). -/
theorem State.hostRead_byteString (s : State) {i : BitVec 10} (hi : inByteString i.toNat = true) :
    s.hostRead i = s.windowWord (4 * i.toNat) := if_pos hi

/-- What the host reads besides STATUS, and the configuration. -/
theorem State.hostRead_congr {s t : State} {i : BitVec 10} (hi : i ≠ 1#10)
    (h : ∀ n, n ≠ 1 → t.registers.getD n 0#32 = s.registers.getD n 0#32) (hwin : t.win = s.win) :
    t.hostRead i = s.hostRead i := by
  have hne : i.toNat ≠ 1 := fun h1 => hi (BitVec.eq_of_toNat_eq h1)
  simp only [State.hostRead, State.windowWord, hwin, h _ hne]

/-- Settles O10. -/
theorem unlistedOffsets : Obligations.UnlistedOffsets := by
  intro s i v hi
  constructor
  · rcases s.hostRead_cases i with ⟨hlt, -⟩ | ⟨hin, -⟩ | ⟨-, -, hread⟩
    · omega
    · simp only [inByteString, Bool.or_eq_true, Bool.and_eq_true, decide_eq_true_eq] at hin
      omega
    · exact hread
  · have hindex : ∀ n : Nat, n < 1024 → i = BitVec.ofNat 10 n → i.toNat = n := fun n hn h => by
      rw [h, BitVec.toNat_ofNat, Nat.mod_eq_of_lt hn]
    rcases s.writeConfig_cases i v with ⟨h, -⟩ | ⟨h, -⟩ | ⟨h, -⟩ | ⟨k, hk, h, -⟩ | ⟨-, hsame⟩
    · have := hindex 4 (by decide) h; omega
    · have := hindex 5 (by decide) h; omega
    · have := hindex 6 (by decide) h; omega
    · omega
    · exact hsame

/-! ## Writes to the idle block -/

/-- The word indexes that take a write of the idle block's host (R20). -/
def configIndex (i : BitVec 10) : Prop := (4 ≤ i.toNat ∧ i.toNat ≤ 6) ∨ (8 ≤ i.toNat ∧ i.toNat ≤ 15)

/-- A write to a configuration register or to the command list changes that one register (R20, R31). -/
theorem State.writeConfig_registers (s : State) {i : BitVec 10} (hi : configIndex i) (v : Word) :
    (s.writeConfig i v).registers = s.registers.set i.toNat v := by
  rcases s.writeConfig_cases i v with ⟨rfl, hw⟩ | ⟨rfl, hw⟩ | ⟨rfl, hw⟩ | ⟨k, hk, h, hw⟩ | ⟨hno, -⟩
  · rw [hw]; rfl
  · rw [hw]; rfl
  · rw [hw]; rfl
  · rw [hw, h]
    simp only [State.registers, Vector.toList_set, List.append_assoc]
    rw [List.set_append_right _ _ (by simp), List.set_append_left _ _ (by simpa using hk)]
    simp only [List.length_cons, List.length_nil, Nat.reduceAdd, Nat.add_sub_cancel_left]
    rfl
  · exact absurd hi hno

/-- Every other word index ignores the write (R20, R23). -/
theorem State.writeConfig_other (s : State) {i : BitVec 10} (hi : ¬ configIndex i) (v : Word) : s.writeConfig i v = s := by
  rcases s.writeConfig_cases i v with ⟨rfl, -⟩ | ⟨rfl, -⟩ | ⟨rfl, -⟩ | ⟨k, hk, h, -⟩ | ⟨-, hw⟩
  · exact absurd (.inl (by decide)) hi
  · exact absurd (.inl (by decide)) hi
  · exact absurd (.inl (by decide)) hi
  · exact absurd (.inr (by omega)) hi
  · exact hw

theorem State.hostRead_writeConfig_same (s : State) {i : BitVec 10} (hi : configIndex i) (v : Word) :
    (s.writeConfig i v).hostRead i = v := by
  have hlt : i.toNat < 0x11 := by unfold configIndex at hi; omega
  rw [State.hostRead_register _ hlt, s.writeConfig_registers hi v, List.getD_eq_getElem?_getD,
    List.getElem?_set_self (by simp [State.registers]; omega)]
  rfl

theorem State.hostRead_writeConfig_other (s : State) {i j : BitVec 10} (hj : j ≠ i) (v : Word) :
    (s.writeConfig i v).hostRead j = s.hostRead j := by
  by_cases hi : configIndex i
  · have hne : i.toNat ≠ j.toNat := fun h => hj (BitVec.eq_of_toNat_eq h.symm)
    simp only [State.hostRead, State.windowWord, State.writeConfig_win, s.writeConfig_registers hi v,
      List.getD_eq_getElem?_getD, List.getElem?_set_ne hne]
  · rw [s.writeConfig_other hi v]

/-- A write of the idle block's host changes the configuration and the command list only (R23). -/
theorem State.writeConfig_frame (s : State) (i : BitVec 10) (v : Word) :
    { s.writeConfig i v with
      cfgBaud := s.cfgBaud, cfgReadTimeout := s.cfgReadTimeout, cfgPort := s.cfgPort, cmds := s.cmds } = s := by
  rcases s.writeConfig_cases i v with ⟨-, hw⟩ | ⟨-, hw⟩ | ⟨-, hw⟩ | ⟨k, hk, -, hw⟩ | ⟨-, hw⟩ <;> rw [hw]

/-- Settles O11: the step is the write, and the write changes the one register it names, if it changes any. -/
theorem hostWritesReadBack : Obligations.HostWritesReadBack := by
  intro s i v h hs hi hh
  refine ⟨_, step_of_hostWrite hs hi hh, by simp, by simp, by simp, by simp, by simpa using hs, fun hc => ?_, fun hc => ?_,
    fun j hj => ?_, by simp, ?_⟩
  · exact State.hostRead_writeConfig_same _ hc v
  · rw [State.writeConfig_other _ hc]
    rfl
  · exact State.hostRead_writeConfig_other { s with host := h } hj v
  · exact congrArg (fun t : State => { t with host := s.host }) (State.writeConfig_frame { s with host := h } i v)

/-! ## What a busy block shows -/

/-- What the host reads besides BUSY, OPEN and REJECT. -/
def State.shows (s : State) : State :=
  { State.reset with
    opreq := s.opreq, done := s.done, result := s.result, valid := s.valid, ftWarn := s.ftWarn, err := s.err,
    reason := s.reason, lastOp := s.lastOp, rdata := s.rdata, failAddr := s.failAddr, cfgBaud := s.cfgBaud,
    cfgReadTimeout := s.cfgReadTimeout, cfgPort := s.cfgPort, cmds := s.cmds, respLen := s.respLen, idLens := s.idLens,
    win := s.win }

theorem State.hostRead_of_shows {s t : State} (h : t.shows = s.shows) {i : BitVec 10} (hi : i ≠ 1#10) :
    t.hostRead i = s.hostRead i := by
  have hshows : ∀ (u : State) (n : Nat), n ≠ 1 → u.registers.getD n 0#32 = u.shows.registers.getD n 0#32 :=
    fun u n hn => match n, hn with
      | 0, _ => rfl
      | 1, hn => absurd rfl hn
      | _ + 2, _ => rfl
  refine State.hostRead_congr hi (fun n hn => ?_) ?_
  · rw [hshows t n hn, hshows s n hn, h]
  · exact (congrArg State.win h :)

/-- STATUS besides OPEN and REJECT, of a busy block. -/
theorem State.statusWord_of_shows {s t : State} (h : t.shows = s.shows) (hs : s.busy = true) (ht : t.busy = true) :
    { t with reject := s.reject, stream := s.stream }.statusWord = s.statusWord := by
  have hword : ∀ u : State, u.busy = true → { u with reject := s.reject, stream := s.stream }.statusWord =
      { u.shows with reject := s.reject, stream := s.stream, seq := s.seq }.statusWord := fun u hu => by
    have hbusy : ({ u with reject := s.reject, stream := s.stream } : State).busy =
        ({ u.shows with reject := s.reject, stream := s.stream, seq := s.seq } : State).busy := hu.trans hs.symm
    simp only [State.statusWord, hbusy]
    rfl
  rw [hword t ht, h, ← hword s hs]

/-- A step of the running operation that does not complete it changes nothing that the host reads but BUSY, OPEN and
REJECT (R24). -/
theorem State.advance_shows {s : State} {d : Draw} (hb : s.busy = true) (ht : (s.advance d).busy = true) :
    (s.advance d).shows = s.shows := by
  obtain ⟨r, hs⟩ := s.busy_iff.mp hb
  rcases State.advance_cases hs d with hm | hp | ⟨r', f, -, -, hf⟩
  · obtain ⟨_, _, _, _, _, _, _, hm, -⟩ := hm.goes
    rw [hm]
    rfl
  · rw [hp] at ht
    nomatch ht
  · rw [hf] at ht
    nomatch ht

theorem State.tick_shows {s : State} (hb : s.busy = true) (ht : s.tick.busy = true) : s.tick.shows = s.shows := by
  have henv : s.environment.dropMeddle.shows = s.shows := by simp [State.shows]
  rcases s.tick_cases with ⟨hs, -⟩ | ⟨m, -, -, htick⟩ | ⟨i, v, -, -, -, htick⟩ | ⟨-, -, htick⟩
  · simp [hs] at hb
  · rw [htick] at ht
    nomatch ht
  · rw [htick] at ht ⊢
    rw [State.advance_shows (by simpa using hb) ht, ← henv]
    simp [State.shows]
  · rw [htick] at ht ⊢
    rw [State.advance_shows (by simpa using hb) ht, henv]

/-- Settles O14. -/
theorem resultsHeldWhileBusy : Obligations.ResultsHeldWhileBusy := fun _ hb ht =>
  have hshows := State.tick_shows hb ht
  ⟨fun _ hi => State.hostRead_of_shows hshows hi, State.statusWord_of_shows hshows hb ht⟩

/-! ## Block resets (R301, R302) -/

/-- A block reset of a state that comes after `s` with the same TX trace. -/
theorem State.resetTo_blockReset {s u : State} (hnow : s.now ≤ u.now) (htx : u.tx = s.tx)
    (hpending : u.txPending = s.txPending) (k : Nat) : s.resetTo (u.blockReset k) := by
  refine ⟨rfl, u.statusWord_blockReset k, rfl, rfl, rfl, rfl, rfl, rfl, rfl, rfl, rfl, rfl, rfl, rfl, hnow, _,
    Nat.le_add_right _ k, ?_⟩
  rw [State.blockReset_tx, htx, hpending]

/-- A block reset at a step of the running operation (R302). -/
theorem State.tick_reset {s : State} {m : List BusyAccess} (hb : s.busy = true) (hm : s.meddle = .reset :: m) :
    s.resetTo s.tick ∧ s.tick.seq = none ∧ s.tick.meddle = m ∧ s.tick.host = s.host := by
  obtain ⟨r, hs⟩ := s.busy_iff.mp hb
  have ht : s.tick = s.environment.dropMeddle.blockReset s.nextDraw.resetSends := by
    unfold State.tick
    simp only [hs, hm]
  rw [ht]
  exact ⟨State.resetTo_blockReset (by simp) (by simp) (by simp) _, rfl, by simp [hm], by simp⟩

/-- A frame that is not on the wire has ended. -/
theorem runFrame_idle {s : State} (hs : s.seq = none) (n k : Nat) : runFrame n k s = s := by
  cases n with
  | zero => rfl
  | succ n => simp [runFrame, State.onWire, hs]

/-- A frame row is the SendCommand of its Command (R100, R141). -/
theorem exec_of_cmd {i : Instr} (hi : i.format = .cmd) (s : State) : exec i s = .next (s.sendFrame i.command) := by
  have hcommand : ∀ c : Command, encode i = commandWord c → i.command = c := fun c hc => by
    rw [Instr.command, hc, wordCommand_commandWord]
  cases i
  case spell | winsel0 | winsel1 | wrUartCtrlOn | wrUartCtrlOff | wrGlobFlashBackup | wrGlobSwReset | wrModeExit
      | wrMscFlashTest | rdModeMsc | rdDiagStat1 | rdGlobCmd | rdProd0 | rdProd1 | rdProd2 | rdProd3 | rdSer0 | rdSer1
      | rdSer2 | rdSer3 | writeFrame | readFrame | rawFrame =>
    rw [hcommand _ rfl]
    rfl
  all_goals nomatch hi

/-- A step of a busy block begins with one step of its sequencer, at most the operation's positions or its bytes being those
of the instruction that runs. -/
theorem step_of_busy_tick {s : State} (hb : s.busy = true) :
    ∃ r n k, step s = .next (runFrame n k ({ s with seq := some r } : State).tick) := by
  obtain ⟨r, hs⟩ := s.busy_iff.mp hb
  by_cases hf : ∃ c rep rest, r.todo = .frame c rep :: rest
  · obtain ⟨c, rep, rest, hr⟩ := hf
    have hframe : ∀ c', s.sendFrame c' = runFrame tickFuel ((frameTodo c' r.todo).length - 1)
        ({ s with seq := some { r with todo := frameTodo c' r.todo } } : State).tick := fun c' => by
      simp only [State.sendFrame, hs]
    exact ⟨_, _, _, by rw [step_of_frame hs hr, exec_of_cmd (commandInstr_wellFormed c).2.1, hframe]⟩
  by_cases hp : ∀ rep rest, r.todo = .parse rep :: rest → r.buf.length < 4
  · refine ⟨r, 0, 0, ?_⟩
    rw [step_of_running hs (fun c rep rest hr => hf ⟨c, rep, rest, hr⟩) hp, ← hs]
    rfl
  · push Not at hp
    obtain ⟨rep, rest, hr, hlen⟩ := hp
    match hbuf : r.buf, hlen with
    | e :: m :: l :: t :: more, _ =>
      refine ⟨{ r with buf := [e, m, l, t] }, 0, 0, ?_⟩
      rw [step_of_parse hs hr hbuf]
      simp only [exec, execReadResponse, State.takeResponse, hs, hr]
      rfl

/-- Settles O7: the environment of the step hands no byte over, and the reset follows it. -/
theorem resetEndsTheOperation : Obligations.ResetEndsTheOperation := by
  refine ⟨fun s m hb hm => ?_, fun s h hs hh => ?_⟩
  · obtain ⟨r, n, k, hstep⟩ := step_of_busy_tick hb
    obtain ⟨hreset, hidle, hmeddle, hhost⟩ :=
      State.tick_reset (s := { s with seq := some r }) (m := m) rfl hm
    rw [runFrame_idle hidle] at hstep
    exact ⟨_, hstep, hreset, hmeddle, hhost⟩
  · exact ⟨_, step_of_hostReset hs hh, State.resetTo_blockReset (by simp) (by simp) (by simp) _, by simp, rfl⟩

/-! ## The words of STATUS and of the byte strings -/

section
open BitVec (extractLsb'_append_eq_of_le extractLsb'_append_eq_of_add_le extractLsb'_eq_self)

/-- Byte `k` of four bytes as a little-endian word (R19). -/
theorem wordOfBytes_byte (b : Nat → Byte) {k : Nat} (hk : k < 4) :
    (wordOfBytes (b 0) (b 1) (b 2) (b 3)).extractLsb' (8 * k) 8 = b k := by
  interval_cases k
  all_goals
    simp (disch := decide) only [wordOfBytes, extractLsb'_append_eq_of_le, extractLsb'_append_eq_of_add_le]
    exact extractLsb'_eq_self

theorem State.statusWord_err (s : State) : s.statusWord.extractLsb' 8 4 = s.err.code := by
  simp (disch := decide) only [State.statusWord, extractLsb'_append_eq_of_le, extractLsb'_append_eq_of_add_le]
  exact extractLsb'_eq_self

theorem State.statusWord_reason (s : State) : s.statusWord.extractLsb' 12 4 = s.reason.code := by
  simp (disch := decide) only [State.statusWord, extractLsb'_append_eq_of_le, extractLsb'_append_eq_of_add_le]
  exact extractLsb'_eq_self

theorem State.statusWord_lastOp (s : State) : s.statusWord.extractLsb' 16 4 = s.lastOp := by
  simp (disch := decide) only [State.statusWord, extractLsb'_append_eq_of_le, extractLsb'_append_eq_of_add_le]
  exact extractLsb'_eq_self

theorem State.statusWord_reserved (s : State) : s.statusWord.extractLsb' 20 12 = 0#12 := by
  simp (disch := decide) only [State.statusWord, extractLsb'_append_eq_of_le]
  exact extractLsb'_eq_self

end

/-- The flags of STATUS, bit by bit (R21). -/
theorem State.statusWord_flags (s : State) :
    s.statusWord.getLsbD 0 = s.busy ∧ s.statusWord.getLsbD 1 = s.done ∧ s.statusWord.getLsbD 2 = s.result ∧
    s.statusWord.getLsbD 3 = s.valid ∧ s.statusWord.getLsbD 4 = s.stream.isOpen ∧ s.statusWord.getLsbD 5 = s.ftWarn ∧
    s.statusWord.getLsbD 6 = s.reject ∧ s.statusWord.getLsbD 7 = false := by
  simp only [State.statusWord, BitVec.getLsbD_append, BitVec.getLsbD_ofBool]
  simp

/-- Settles O9: STATUS by its fields, every register by its place in the window, the byte strings by their bytes. -/
theorem statusWordLayout : Obligations.StatusWordLayout := by
  intro s
  obtain ⟨h0, h1, h2, h3, h4, h5, h6, h7⟩ := s.statusWord_flags
  refine ⟨rfl, h0, h1, h2, h3, h4, h5, h6, h7, ?err, ?reason, s.statusWord_lastOp, s.statusWord_reserved, rfl, rfl,
    ?failAddr, ?noFailAddr, rfl, rfl, rfl, rfl, ?cmds, ?idLens, ?bytes⟩
  case err =>
    rw [s.statusWord_err]
    obtain _ | k | _ := s.err
    · rfl
    · cases k <;> rfl
    · rfl
  case reason =>
    rw [s.statusWord_reason]
    cases s.reason <;> rfl
  case failAddr =>
    intro a ha
    have hread : s.hostRead 0x03#10 = s.failAddrWord := rfl
    rw [hread, State.failAddrWord, ha]
  case noFailAddr =>
    intro ha
    have hread : s.hostRead 0x03#10 = s.failAddrWord := rfl
    rw [hread, State.failAddrWord, ha]
  case cmds =>
    intro k
    have hindex : (BitVec.ofNat 10 (0x08 + k)).toNat = 8 + k := by
      rw [BitVec.toNat_ofNat, Nat.mod_eq_of_lt (by omega)]
    rw [State.hostRead_register _ (by omega), hindex, State.registers, List.append_assoc, List.getD_append_right _ _ _ _ (by simp)]
    simp [List.getElem?_append_left]
  case idLens =>
    rw [State.hostRead_register _ (by decide), State.registers, List.getD_append_right _ _ _ _ (by simp)]
    simp
  case bytes =>
    intro i hi k hk
    have hin : inByteString i.toNat = true := by
      simp only [inByteString, Bool.or_eq_true, Bool.and_eq_true, decide_eq_true_eq]
      omega
    rw [State.hostRead_byteString _ hin]
    exact wordOfBytes_byte (fun k => s.win.read (4 * i.toNat + k)) hk

end Sys2Proof.Machine

/-! SUPPORT. The bytes that a completion writes to the window, and where its mapping does not hold (R26, R28, R263). -/

namespace Sys2Proof.Machine

/-- Bytes written stand left-aligned from their base on, what was there before them stays behind them. -/
theorem Memory.read_writeBytes_getD {m : Memory} (h : Memory.wf m) (a k : Nat) (bs : List Byte) :
    Memory.read (Memory.writeBytes m a bs) (a + k) = bs.getD k (Memory.read m (a + k)) := by
  by_cases hk : k < bs.length
  · rw [Memory.read_writeBytes h hk, List.getD_eq_getElem _ _ hk]
  · rw [Memory.read_writeBytes_other (by omega), List.getD_eq_default _ _ (by omega)]

/-- The identity registers alone. -/
theorem windowImage_nil_wf (ident : Option Identity) : Memory.wf (windowImage ident []) := windowImage_wf ident []

/-- A completion writes the response after the identity strings. -/
theorem windowImage_eq (ident : Option Identity) (resp : List Byte) :
    windowImage ident resp = Memory.writeBytes (windowImage ident []) respBase resp := rfl

/-- The bytes of the identity registers (R26). -/
theorem windowImage_identity {i : Identity} (hi : i.fits) {k : Nat} (hk : k < 16) :
    (windowImage (some i) []).read (0x050 + k) = i.raw.getD k 0x00#8 ∧
      (windowImage (some i) []).read (0x060 + k) = i.product.getD k 0x00#8 ∧
      (windowImage (some i) []).read (0x070 + k) = i.serial.getD k 0x00#8 := by
  obtain ⟨hraw, hproduct, hserial⟩ := hi
  simp only [idCap] at hraw hproduct hserial
  have hwf1 : Memory.wf (Memory.writeBytes [] idRawBase i.raw) := Memory.writeBytes_wf Memory.wf_nil _ _
  have hwf2 : Memory.wf (Memory.writeBytes (Memory.writeBytes [] idRawBase i.raw) idProductBase i.product) :=
    Memory.writeBytes_wf hwf1 _ _
  simp only [windowImage, Memory.writeBytes]
  refine ⟨?_, ?_, ?_⟩
  · rw [Memory.read_writeBytes_other (by simp only [idSerialBase]; omega),
      Memory.read_writeBytes_other (by simp only [idProductBase]; omega)]
    exact Memory.read_writeBytes_getD Memory.wf_nil idRawBase k i.raw
  · rw [Memory.read_writeBytes_other (by simp only [idSerialBase]; omega)]
    refine (Memory.read_writeBytes_getD hwf1 idProductBase k i.product).trans (congrArg _ ?_)
    exact Memory.read_writeBytes_other (by simp only [idProductBase, idRawBase]; omega)
  · refine (Memory.read_writeBytes_getD hwf2 idSerialBase k i.serial).trans (congrArg _ ?_)
    rw [Memory.read_writeBytes_other (by simp only [idProductBase, idSerialBase]; omega),
      Memory.read_writeBytes_other (by simp only [idRawBase, idSerialBase]; omega)]
    rfl

/-- Identity strings that fit leave RESP alone (R20). -/
theorem windowImage_resp_of_fits {ident : Option Identity} (hi : ∀ i, ident = some i → i.fits) {a : Nat} (ha : 0x080 ≤ a) :
    (windowImage ident []).read a = 0x00#8 := by
  cases ident with
  | none => rfl
  | some i =>
    obtain ⟨hraw, hproduct, hserial⟩ := hi i rfl
    simp only [idCap] at hraw hproduct hserial
    simp only [windowImage, Memory.writeBytes]
    rw [Memory.read_writeBytes_other (by simp only [idSerialBase]; omega),
      Memory.read_writeBytes_other (by simp only [idProductBase]; omega),
      Memory.read_writeBytes_other (by simp only [idRawBase]; omega)]
    rfl

/-- Settles O24: the strings fit, so no register reaches into another. -/
theorem windowBytesOfACompletion : Obligations.WindowBytesOfACompletion := by
  intro ident resp _ hi
  refine ⟨fun k _ => ?_, fun k hk => ?_⟩
  · rw [windowImage_eq]
    refine (Memory.read_writeBytes_getD (windowImage_nil_wf ident) respBase k resp).trans (congrArg _ ?_)
    exact windowImage_resp_of_fits hi (by simp only [respBase]; omega)
  · rw [windowImage_eq, Memory.read_writeBytes_other (by simp only [respBase]; omega),
      Memory.read_writeBytes_other (by simp only [respBase]; omega),
      Memory.read_writeBytes_other (by simp only [respBase]; omega)]
    cases ident with
    | none => exact ⟨rfl, rfl, rfl⟩
    | some i => exact windowImage_identity (hi i rfl) hk

/-- A DETECT_IDENTITY that is about to pass with the identity record `i`. -/
def identityRun (i : Identity) : Run := { startRun 7#4 [] with ident := some i }

/-- A Pass with an identity record writes its serial string from 0x070 on, however long the string is. -/
theorem pass_identityRun_read (s : State) (i : Identity) {k : Nat} (hk : k < i.serial.length) :
    (s.pass (identityRun i)).win.read (0x070 + k) = i.serial[k] :=
  Memory.read_writeBytes
    (Memory.writeBytes_wf (Memory.writeBytes_wf Memory.wf_nil idRawBase i.raw) idProductBase i.product) hk

/-- An identity record whose serial string is too long for its register and reaches into RESP; `identityOf` gives none like
it. -/
def longIdentity : Identity := { raw := [], product := [], serial := List.replicate 2000 0x41#8 }

/-- Refutes O8: its clause on an operation with no response does not ask that the identity strings fit their registers. A
Pass of DETECT_IDENTITY with a serial string of 2000 bytes writes 0x41 at offset 0x800, where the clause wants 0x00. -/
theorem not_completionMapping : ¬ Obligations.CompletionMapping := by
  intro h
  obtain ⟨-, -, -, -, -, -, -, -, -, -, -, hresp, -⟩ := h.1 State.reset (identityRun longIdentity)
  have hlength : 0x790 < longIdentity.serial.length := by
    rw [longIdentity, List.length_replicate]
    decide
  have hlong := (pass_identityRun_read State.reset longIdentity hlength).trans (List.getElem_replicate _)
  have hzero := (hresp (of_decide_eq_true rfl) (of_decide_eq_true rfl)).2 0 (by decide)
  exact absurd (hzero.symm.trans hlong) (by decide)

end Sys2Proof.Machine

/-! SUPPORT. The receive FIFO and the reader's timer (R37, R138, R270). -/

namespace Sys2Proof.Machine

/-- Settles O22: where the FIFO has room for the first bytes only, they are the bytes before its depth. -/
theorem fifoArrivals : Obligations.FifoArrivals := by
  intro s bs
  refine ⟨fun ho => State.arrive_closed ho bs, fun ho hd => State.arrive_unbounded ho hd bs, fun n ho hd hn =>
    ⟨fun hv => ?newest, fun hv => ?oldest, fun hv => ?stall⟩⟩
  all_goals simp only [State.arrive, ho, hd, hv, if_true]
  case newest => exact ⟨by rw [List.take_append, List.take_of_length_le hn], trivial⟩
  case oldest => exact ⟨trivial, trivial⟩
  case stall =>
    refine ⟨?_, by rw [List.append_assoc, List.take_append_drop]⟩
    rw [List.length_append, List.length_take]
    omega

/-- A step of an operation whose host leaves it alone, with an empty unbounded FIFO: time passes and the bytes of the draw
arrive, then the operation goes on. -/
theorem State.tick_alone {s : State} {r : Run} {d : Draw} {ds : List Draw} (hs : s.seq = some r) (hm : s.meddle = [])
    (ho : s.stream.isOpen = true) (hd : s.params.rxFifoDepth = none) (hrx : s.rx = []) (hscript : s.script = d :: ds) :
    s.tick = ({ s with script := ds, now := s.now + d.elapsed, rx := d.arrivals } : State).advance d := by
  have henv : s.environment = { s with script := ds, now := s.now + d.elapsed, rx := d.arrivals } := by
    rw [State.environment, State.nextDraw_cons hscript, State.dropDraw_cons hscript]
    exact (State.arrive_unbounded (s := { s with script := ds, now := s.now + d.elapsed }) ho hd _).trans
      (by simp only [hrx, List.nil_append])
  simp only [State.tick, hs, hm, henv, State.nextDraw_cons hscript]

/-- Settles O23: the step is the reader's, which looks at the byte before it looks at the clock. -/
theorem readTimerAndTie : Obligations.ReadTimerAndTie := by
  intro s r need last rep rest d ds hs hr hm ho hd hrx hscript
  have hreader : ∀ u : State, u.seq = some r → u.advance d = u.rxByte { r with todo := rest } (need + 1) last rep :=
    fun u hu => by
      unfold State.advance
      simp only [hu, hr]
      rfl
  have htick := (State.tick_alone hs hm ho hd hrx hscript).trans (hreader _ hs)
  refine ⟨fun b bs hb => ?taken, fun hb hlt => ?waits, fun hb hle => ?timeout⟩
  case taken =>
    rw [htick, hb]
    rfl
  case waits =>
    have hrun : { r with todo := .rx (need + 1) last rep :: rest } = r := by rw [← hr]
    refine htick.trans ?_
    simp only [hb, State.rxByte, if_neg (Nat.not_le.mpr hlt), hrun, State.goOn]
    rw [← hs, ← hrx]
  case timeout =>
    refine htick.trans ?_
    simp only [hb, State.rxByte, if_pos hle]
    rw [← hrx]

end Sys2Proof.Machine

/-! SUPPORT. The identity text decoder (R183, R184). -/

namespace Sys2Proof.Machine

/-- `dropWhile` stops at a byte that is not dropped. -/
theorem not_mem_of_head?_dropWhile {ws s : List Byte} {b : Byte} (h : (s.dropWhile ws.contains).head? = some b) : b ∉ ws := by
  have hstop := List.head?_dropWhile_not ws.contains s
  rw [h] at hstop
  simpa using hstop

theorem takeWhile_contains_subset {ws s : List Byte} : ∀ b ∈ s.takeWhile ws.contains, b ∈ ws := fun b hb => by
  simpa using List.all_eq_true.mp (List.all_takeWhile (p := ws.contains) (l := s)) b hb

/-- What `trim` takes away at the end. -/
theorem trim_append_trailing (ws s : List Byte) :
    s.dropWhile ws.contains = trim ws s ++ ((s.dropWhile ws.contains).reverse.takeWhile ws.contains).reverse := by
  rw [trim, ← List.reverse_append, List.takeWhile_append_dropWhile, List.reverse_reverse]

/-- `trim` takes bytes of `ws` away, at the two ends only. -/
theorem trim_split (ws s : List Byte) : ∃ front back, s = front ++ trim ws s ++ back ∧ ∀ b ∈ front ++ back, b ∈ ws := by
  refine ⟨s.takeWhile ws.contains, ((s.dropWhile ws.contains).reverse.takeWhile ws.contains).reverse, ?_, fun b hb => ?_⟩
  · rw [List.append_assoc, ← trim_append_trailing, List.takeWhile_append_dropWhile]
  · rcases List.mem_append.mp hb with hb | hb
    · exact takeWhile_contains_subset b hb
    · exact takeWhile_contains_subset b (List.mem_reverse.mp hb)

theorem trim_head {ws s : List Byte} {b : Byte} (h : (trim ws s).head? = some b) : b ∉ ws := by
  refine not_mem_of_head?_dropWhile (s := s) ?_
  rw [trim_append_trailing, List.head?_append, h]
  rfl

theorem trim_last {ws s : List Byte} {b : Byte} (h : (trim ws s).getLast? = some b) : b ∉ ws := by
  rw [trim, List.getLast?_reverse] at h
  exact not_mem_of_head?_dropWhile h

/-- A text whose two ends are not in `ws` stays as it is. -/
theorem trim_eq_self {ws s : List Byte} (hhead : ∀ b, s.head? = some b → b ∉ ws) (hlast : ∀ b, s.getLast? = some b → b ∉ ws) :
    trim ws s = s := by
  have hstay : ∀ l : List Byte, (∀ b, l.head? = some b → b ∉ ws) → l.dropWhile ws.contains = l := fun l hl => by
    cases l with
    | nil => rfl
    | cons b l => exact List.dropWhile_cons_of_neg (by simpa using hl b rfl)
  rw [trim, hstay s hhead, hstay s.reverse (by simpa only [List.head?_reverse] using hlast), List.reverse_reverse]

/-- The characters of the words, null bytes dropped. -/
def textChars (ws : List Half) : List Byte := (ws.flatMap decodeWord).filter (· != 0x00)

/-- The characters that NONASCII keeps. -/
def keptChars (p : Params) (ws : List Half) : List Byte :=
  if p.nonAscii = .drop then (textChars ws).filter (fun b => decide (b.toNat < 0x80)) else textChars ws

theorem not_isNonAscii (b : Byte) : (!isNonAscii b) = decide (b.toNat < 0x80) := by
  rw [isNonAscii, ← decide_not]
  exact decide_eq_decide.mpr Nat.not_le

/-- A string of which NONASCII rejects nothing is its kept characters, trimmed. -/
theorem decodeText_accepted {p : Params} {ws : List Half} (h : p.nonAscii = .reject → (textChars ws).any isNonAscii = false) :
    decodeText p ws = some (trim p.wsSet (keptChars p ws)) := by
  unfold decodeText keptChars
  cases hn : p.nonAscii with
  | keep => rfl
  | drop => simp [not_isNonAscii, textChars]
  | reject => exact if_neg (Bool.eq_false_iff.mp (h hn))

theorem decodeText_rejected {p : Params} {ws : List Half} (hn : p.nonAscii = .reject)
    (h : (textChars ws).any isNonAscii = true) : decodeText p ws = none := by
  unfold decodeText
  rw [hn]
  exact if_pos h

theorem textChars_any_isNonAscii (ws : List Half) :
    (textChars ws).any isNonAscii = true ↔ ∃ b ∈ textChars ws, 0x80 ≤ b.toNat := by
  simp [List.any_eq_true, isNonAscii]

/-- Settles O44. -/
theorem decodedText : Obligations.DecodedText := by
  intro p ws
  by_cases h : p.nonAscii = .reject ∧ (textChars ws).any isNonAscii = true
  · have hnone := decodeText_rejected h.1 h.2
    exact ⟨⟨fun _ => ⟨h.1, (textChars_any_isNonAscii ws).mp h.2⟩, fun _ => hnone⟩, fun t ht => by simp [hnone] at ht⟩
  · have hsome : decodeText p ws = some (trim p.wsSet (keptChars p ws)) :=
      decodeText_accepted fun hn => Bool.eq_false_iff.mpr fun hany => h ⟨hn, hany⟩
    refine ⟨⟨fun hnone => by simp [hsome] at hnone, fun hbad => ?_⟩, fun t ht => ?_⟩
    · exact absurd ⟨hbad.1, (textChars_any_isNonAscii ws).mpr hbad.2⟩ h
    · obtain rfl : trim p.wsSet (keptChars p ws) = t := Option.some.inj (hsome.symm.trans ht)
      exact ⟨trim_split _ _, fun _ => trim_head, fun _ => trim_last⟩

/-- The word of two characters holds the first in its low byte (R183). -/
theorem decodeWord_append (a b : Byte) : decodeWord (b ++ a) = [a, b] := by
  simp (disch := decide) only [decodeWord, BitVec.extractLsb'_append_eq_of_le, BitVec.extractLsb'_append_eq_of_add_le]
  exact congrArg₂ (fun x y => [x, y]) BitVec.extractLsb'_eq_self BitVec.extractLsb'_eq_self

/-- Settles O43: an ASCII text without null bytes loses no character, and its ends stop the trimming. -/
theorem textRoundTrip : Obligations.TextRoundTrip := by
  intro p a b c d e g h i t ht ha hi
  have hchars : textChars [b ++ a, d ++ c, g ++ e, i ++ h] = t := by
    rw [textChars, List.filter_eq_self.mpr]
    · simp only [List.flatMap_cons, List.flatMap_nil, decodeWord_append]
      rfl
    · simp only [List.flatMap_cons, List.flatMap_nil, decodeWord_append]
      exact fun x hx => bne_iff_ne.mpr (ht x hx).1
  have hkept : keptChars p [b ++ a, d ++ c, g ++ e, i ++ h] = t := by
    rw [keptChars, hchars]
    exact ite_eq_right_iff.mpr fun _ => List.filter_eq_self.mpr fun x hx => decide_eq_true (ht x hx).2
  rw [decodeText_accepted, hkept, trim_eq_self]
  · exact fun x hx => Option.some.inj hx ▸ ha
  · exact fun x hx => Option.some.inj hx ▸ hi
  · intro _
    rw [hchars, List.any_eq_false]
    exact fun x hx => by simpa [isNonAscii] using (ht x hx).2

end Sys2Proof.Machine

/-! SUPPORT. Calm runs that end with a step at which the platform fails or the sensor is silent, and runs of several
commands. -/

namespace Sys2Proof.Machine

section
variable {s : State} {rest : List Draw} {n : Nat} {tx rx : List Byte} {pend now : Nat}
  {op : BitVec 4} {todo : List Act} {buf : List Byte} {v : Half} {ws : List Half} {id : Option Identity} {ftw : Bool}

/-! ## One step that is not quiet -/

/-- A step at which no byte arrives is that of the running operation, after the time of the draw. -/
theorem State.mid_draw_tick (h : s.Still rx.length) {d : Draw} (hd : d.arrivals = []) (r : Run) :
    (s.mid (d :: rest) 0 tx rx pend now r).tick = (s.mid rest 0 tx rx pend (now + d.elapsed) r).advance d := by
  have hs : (s.mid (d :: rest) 0 tx rx pend now r).script = d :: rest := rfl
  have he : (s.mid (d :: rest) 0 tx rx pend now r).environment = s.mid rest 0 tx rx pend (now + d.elapsed) r := by
    unfold State.environment
    rw [State.nextDraw_cons hs, State.dropDraw_cons hs, hd]
    exact State.arrive_nil (s := s.mid rest 0 tx rx pend (now + d.elapsed) r) h.held h.fifo
  have htick : (s.mid (d :: rest) 0 tx rx pend now r).tick =
      (s.mid (d :: rest) 0 tx rx pend now r).environment.advance (s.mid (d :: rest) 0 tx rx pend now r).nextDraw := by
    unfold State.tick
    simp only [State.mid, h.meddle]
  rw [htick, State.nextDraw_cons hs, he]

/-- One step of the position at the head of the list, with a draw at which no byte arrives. -/
theorem BusyRun.actDraw {a : Act} {d : Draw} {t : State} (h : s.Still rx.length) (hd : d.arrivals = [])
    (he : (s.mid rest 0 tx rx pend (now + d.elapsed) ⟨op, todo, buf, v, ws, id, ftw⟩).act
      ⟨op, todo, buf, v, ws, id, ftw⟩ d a = t) :
    BusyRun 1 (s.mid (d :: rest) 0 tx rx pend now ⟨op, a :: todo, buf, v, ws, id, ftw⟩) t := by
  refine .step rfl ?_
  rw [State.mid_draw_tick h hd, ← he]
  exact .refl _

/-! ## A frame that fails -/

/-- A frame of which the platform fails byte `k + 1` or, for `k = 3`, the flush, with nothing after it that stops the
failure (R136, R141, R266): `k + 2` steps. -/
theorem BusyRun.frameFails (h : s.Still rx.length) (ho : s.stream.isOpen = true) (hu : unwind todo = none) (c : Command)
    (rep : Byte) {k : Nat} (hk : k ≤ 3) :
    BusyRun (k + 2) (s.mid (Draw.ioFailure :: rest) (k + 1) tx rx pend now ⟨op, .frame c rep :: todo, buf, v, ws, id, ftw⟩)
      ((s.mid rest 0 (tx ++ c.bytes.take k) rx (pend + k) now ⟨op, todo, buf, v, ws, id, ftw⟩).completeFail
        ⟨op, todo, buf, v, ws, id, ftw⟩ (.transport .io (some rep))) := by
  have hstart : ∀ m, BusyRun 1
      (s.mid (Draw.ioFailure :: rest) (m + 1) tx rx pend now ⟨op, .frame c rep :: todo, buf, v, ws, id, ftw⟩)
      (s.mid (Draw.ioFailure :: rest) m tx rx pend now ⟨op, frameActs c rep ++ todo, buf, v, ws, id, ftw⟩) := fun m =>
    .act h (by
      simp only [State.act, State.startFrame]
      exact (if_pos ho).trans rfl)
  have hfails : ∀ (a : Act) (acts : List Act) (tx' : List Byte) (pend' : Nat), unwind acts = unwind todo →
      (∀ (u : State) (r : Run), u.act r Draw.ioFailure a = u.failWith r (.transport .io (some rep))) →
      BusyRun 1 (s.mid (Draw.ioFailure :: rest) 0 tx' rx pend' now ⟨op, a :: acts, buf, v, ws, id, ftw⟩)
        ((s.mid rest 0 tx' rx pend' now ⟨op, todo, buf, v, ws, id, ftw⟩).completeFail
          ⟨op, todo, buf, v, ws, id, ftw⟩ (.transport .io (some rep))) := fun a acts tx' pend' hacts ha =>
    .actDraw h rfl ((ha _ _).trans (State.failWith_of_unwind_none (r := ⟨op, acts, buf, v, ws, id, ftw⟩) (hacts.trans hu) _ _))
  have hsends : ∀ (m : Nat) (b : Byte) (acts : List Act) (tx' : List Byte) (pend' : Nat), BusyRun 1
      (s.mid (Draw.ioFailure :: rest) (m + 1) tx' rx pend' now ⟨op, .tx b rep :: acts, buf, v, ws, id, ftw⟩)
      (s.mid (Draw.ioFailure :: rest) m (tx' ++ [b]) rx (pend' + 1) now ⟨op, acts, buf, v, ws, id, ftw⟩) :=
    fun m b acts tx' pend' => .txByte h b rep
  obtain rfl | rfl | rfl | rfl : k = 0 ∨ k = 1 ∨ k = 2 ∨ k = 3 := by omega
  · rw [List.take_zero, List.append_nil]
    exact (hstart 0).trans (hfails (.tx c.b1 rep) _ tx pend (by rfl) fun _ _ => rfl)
  · exact ((hstart 1).trans (hsends 0 c.b1 _ tx pend)).trans (hfails (.tx c.b2 rep) _ _ _ (by rfl) fun _ _ => rfl)
  · have hrun := (((hstart 2).trans (hsends 1 c.b1 _ tx pend)).trans (hsends 0 c.b2 _ _ _)).trans
      (hfails (.tx term rep) _ _ _ (by rfl) fun _ _ => rfl)
    rwa [List.append_assoc] at hrun
  · have hrun := ((((hstart 3).trans (hsends 2 c.b1 _ tx pend)).trans (hsends 1 c.b2 _ _ _)).trans
      (hsends 0 term _ _ _)).trans (hfails (.flush c.len.toNat rep) _ _ _ (by rfl) fun _ _ => rfl)
    rwa [List.append_assoc, List.append_assoc] at hrun

/-- A frame whose response stays short for the timeout, with nothing after it that stops the failure (R138, R141, R266). -/
theorem BusyRun.exchangeShort (ho : s.stream.isOpen = true) (hu : unwind todo = none) {c : Command} {part : List Byte}
    (h : s.Still part.length) (hl : part.length < c.len.toNat) {ms : Nat} (hms : s.stream.timeout.toNat ≤ ms) (rep : Byte) :
    BusyRun (part.length + 6)
      (s.mid (Draw.after ms :: rest) (part.length + 5) tx part pend now ⟨op, .frame c rep :: todo, buf, v, ws, id, ftw⟩)
      ((s.mid rest 0 (tx ++ c.bytes) [] 0 (now + ms) ⟨op, todo, buf, v, ws, id, ftw⟩).completeFail
        ⟨op, todo, buf, v, ws, id, ftw⟩ (.transport .timeout (some rep))) := by
  obtain ⟨need, hneed⟩ : ∃ need, c.len.toNat = part.length + (need + 1) := ⟨c.len.toNat - part.length - 1, by omega⟩
  have hsent := BusyRun.frameSent (rest := Draw.after ms :: rest) (n := 0 + part.length) (tx := tx) (pend := pend) (now := now)
    (op := op) (todo := todo) (buf := buf) (v := v) (ws := ws) (id := id) (ftw := ftw) h ho c rep
  rw [if_neg (by omega), hneed] at hsent
  have hstill : s.Still (part ++ []).length := by rwa [List.append_nil]
  have hpart := BusyRun.rxSome (rest := Draw.after ms :: rest) (n := 0) (tx := tx ++ c.bytes) (pend := 0) (now := now)
    (op := op) (todo := todo) (buf := buf) (v := v) (ws := ws) (id := id) (ftw := ftw) (rep := rep) part need hstill
  rw [List.append_nil] at hpart
  have hsilence : BusyRun 1 (s.mid (Draw.after ms :: rest) 0 (tx ++ c.bytes) [] 0 now
      ⟨op, .rx (need + 1) now rep :: todo, buf ++ part, v, ws, id, ftw⟩)
      ((s.mid rest 0 (tx ++ c.bytes) [] 0 (now + ms) ⟨op, todo, buf, v, ws, id, ftw⟩).completeFail
        ⟨op, todo, buf, v, ws, id, ftw⟩ (.transport .timeout (some rep))) := by
    refine .actDraw (h.mono (Nat.zero_le _)) rfl ?_
    have htimeout : s.stream.timeout.toNat ≤ now + ms - now := by omega
    refine (if_pos htimeout).trans ?_
    exact (State.failWith_of_unwind_none (r := ⟨op, todo, buf ++ part, v, ws, id, ftw⟩) hu _ _)
  have hrun := (hsent.trans hpart).trans hsilence
  rwa [show 5 + part.length + 1 = part.length + 6 by omega, show 0 + part.length + 5 = part.length + 5 by omega] at hrun

/-! ## Several commands -/

theorem sendListActs_cons (c : Command) (cs : List Command) :
    sendListActs (c :: cs) = .frame c c.b1 :: sendListActs cs := rfl

/-- Commands whose responses are there (R147): 5 steps each, and one for each byte. -/
theorem BusyRun.exchanges (ho : s.stream.isOpen = true) (cs : List Command) (resps : List (List Byte))
    (hl : resps.map List.length = cs.map (fun c => c.len.toNat)) (h : s.Still (resps.flatten ++ rx).length) :
    BusyRun (5 * cs.length + resps.flatten.length)
      (s.mid rest (n + (5 * cs.length + resps.flatten.length)) tx (resps.flatten ++ rx) pend now
        ⟨op, sendListActs cs ++ todo, buf, v, ws, id, ftw⟩)
      (s.mid rest n (tx ++ cs.flatMap Command.bytes) rx (if cs = [] then pend else 0) now
        ⟨op, todo, buf ++ resps.flatten, v, ws, id, ftw⟩) := by
  induction cs generalizing resps tx pend buf with
  | nil =>
    obtain rfl : resps = [] := List.map_eq_nil_iff.mp hl
    simpa [sendListActs] using BusyRun.refl _
  | cons c cs ih =>
    obtain ⟨resp, resps, rfl⟩ : ∃ resp resps', resps = resp :: resps' := by
      cases resps with
      | nil => simp at hl
      | cons resp resps => exact ⟨resp, resps, rfl⟩
    simp only [List.map_cons, List.cons.injEq] at hl
    have hfirst := BusyRun.exchange (rest := rest) (n := n + (5 * cs.length + resps.flatten.length)) (tx := tx) (pend := pend)
      (now := now) (op := op) (todo := sendListActs cs ++ todo) (buf := buf) (v := v) (ws := ws) (id := id) (ftw := ftw)
      (rx := resps.flatten ++ rx) ho (resp := resp) (by simpa only [List.flatten_cons, List.append_assoc] using h) hl.1 c.b1
    have hlater := ih (tx := tx ++ c.bytes) (pend := 0) (buf := buf ++ resp) resps hl.2 (h.mono (by simp))
    have hrun := hfirst.trans hlater
    rw [ite_self, ← List.cons_append, ← sendListActs_cons] at hrun
    have hsteps : 5 + resp.length + (5 * cs.length + resps.flatten.length) =
        5 * (c :: cs).length + (resp :: resps).flatten.length := by
      simp only [List.length_cons, List.flatten_cons, List.length_append]
      omega
    rw [hsteps, Nat.add_assoc, Nat.add_comm (5 * cs.length + _) (5 + _), hsteps] at hrun
    simpa only [List.flatten_cons, List.flatMap_cons, List.append_assoc, if_neg (List.cons_ne_nil c cs)] using hrun

end

/-! ## Whole requests -/

/-- A request whose steps lead to a failure that nothing stops ends with its Fail report (R263, R265). -/
theorem State.request_fails_after {s : State} {q : Word} {todo : List Act} {k n : Nat} {d : List Draw} {rest : List Draw}
    {tx rx : List Byte} {pend now : Nat} {r : Run} {f : Failure} (hs : s.seq = none) (hc : s.Calm n d)
    (h : BusyRun k ((s.accept q todo).mid d n s.tx s.rx s.txPending s.now ⟨opField q, todo, [], 0#16, [], none, false⟩)
      (((s.accept q todo).mid rest 0 tx rx pend now r).completeFail r f))
    (hr : r.ftw = false) (hk : k ≤ tickFuel) :
    s.request q todo = State.reports { s with script := rest, tx := tx, rx := rx, txPending := pend, now := now } q
      (failReport f) false := by
  rw [State.request_fail hs hc h rfl hk, State.completeFail, reportedFtWarn_of_not_ftw hr]
  rfl

end Sys2Proof.Machine

/-! SUPPORT. The transport requests: OPEN, CLOSE, SEND_COMMAND, SEND_COMMANDS, and the operations that fail at their first
frame on a closed stream. -/

namespace Sys2Proof.Machine

/-! ## OPEN and CLOSE -/

/-- OPEN on a closed stream whose platform answers Ok latches the stream parameters and empties the FIFO (R131, R133). -/
theorem State.openStream_ok {s : State} (hclosed : s.stream.isOpen = false) (hheld : s.held = []) (r : Run) :
    s.openStream r .ok = State.goOn { s with
      stream := { isOpen := true, timeout := s.cfgReadTimeout, baud := s.cfgBaud, port := s.cfgPort }, rx := [] } r := by
  refine (if_neg (Bool.eq_false_iff.mp hclosed)).trans ?_
  simp only [connKind]
  rw [← hheld]

/-- OPEN on a closed stream whose platform fails (R132). -/
theorem State.openStream_failed {s : State} (hclosed : s.stream.isOpen = false) {o : PlatformOutcome} {k : TransportErr}
    (hk : connKind o = some k) (r : Run) : s.openStream r o = s.failWith r (.transport k none) := by
  refine (if_neg (Bool.eq_false_iff.mp hclosed)).trans ?_
  simp only [hk]

/-- CLOSE closes the stream (R135). -/
theorem State.closeStream_eq {s : State} (hheld : s.held = []) (r : Run) :
    s.closeStream r = State.goOn { s with stream := { s.stream with isOpen := false } } r := by
  rw [State.closeStream, ← hheld]

/-- A request of one position that changes the stream and the FIFO, and nothing else, in a calm state: it takes that step
and its completion (R34). -/
theorem State.request_onStream {s : State} {q : Word} {a : Act} {rest : List Draw} {stream : Stream} {rx : List Byte}
    {op : BitVec 4} (hq : opField q = op) (h3 : returnsBytes op = false) (h6 : returnsWord op = false)
    (h7 : returnsIdentity op = false) (hs : s.seq = none) (hc : s.Calm 2 rest) (hrx : rx.length ≤ s.rx.length)
    (ha : ∀ (u : State) (r : Run), u.stream = s.stream → u.held = [] → u.rx = s.rx → u.cfgReadTimeout = s.cfgReadTimeout →
      u.cfgBaud = s.cfgBaud → u.cfgPort = s.cfgPort →
      u.act r Draw.quiet a = State.goOn { u with stream := stream, rx := rx } r) :
    s.request q [a] = State.reports { s with script := rest, stream := stream, rx := rx } q .passed false := by
  subst hq
  have hstill := hc.still q [a]
  have hacts : BusyRun 1 (s.accept q [a])
      (State.mid { s.accept q [a] with stream := stream } rest 1 s.tx rx s.txPending s.now (startRun (opField q) [])) := by
    rw [State.accept_mid hc]
    exact .act hstill (ha _ _ rfl hc.held rfl rfl rfl rfl)
  have hpass := BusyRun.pass (s := { s.accept q [a] with stream := stream }) (rest := rest) (n := 0) (tx := s.tx) (rx := rx)
    (pend := s.txPending) (now := s.now) (op := opField q) (buf := []) (v := 0#16) (ws := []) (id := none) (ftw := false)
    ⟨hstill.meddle, hstill.held, fun m hm => Nat.le_trans hrx (hstill.fifo m hm)⟩
  rw [State.request_run hs (hacts.trans hpass) rfl (by decide), State.pass, passReport_plain h3 h6 h7,
    reportedFtWarn_of_not_ftw rfl]
  rfl

/-- Settles O26. -/
theorem openSucceeds : Obligations.OpenSucceeds := by
  intro hi f s rest hs hclosed hc
  refine congrArg _ (State.request_onStream (Laws.requestWord_op hi f 1#4) rfl rfl rfl hs hc (Nat.zero_le _) ?_)
  intro u r hstream hheld _ htimeout hbaud hport
  rw [← htimeout, ← hbaud, ← hport]
  exact State.openStream_ok (hstream ▸ hclosed) hheld r

/-- Settles O29. -/
theorem closeAlwaysPasses : Obligations.CloseAlwaysPasses := by
  intro hi f s rest hs hc
  refine congrArg _ (State.request_onStream (Laws.requestWord_op hi f 2#4) rfl rfl rfl hs hc (Nat.le_refl _) ?_)
  intro u r hstream hheld hrx _ _ _
  rw [← hstream, ← hrx]
  exact State.closeStream_eq hheld r

/-- A step of an operation on a closed stream, which its host leaves alone: what the sensor sends is lost (R37). -/
theorem State.tick_closed {s : State} {r : Run} {d : Draw} {ds : List Draw} (hs : s.seq = some r) (hm : s.meddle = [])
    (hclosed : s.stream.isOpen = false) (hscript : s.script = d :: ds) :
    s.tick = ({ s with script := ds, now := s.now + d.elapsed } : State).advance d := by
  have henv : s.environment = { s with script := ds, now := s.now + d.elapsed } := by
    rw [State.environment, State.nextDraw_cons hscript, State.dropDraw_cons hscript]
    exact State.arrive_closed (s := { s with script := ds, now := s.now + d.elapsed }) hclosed _
  simp only [State.tick, hs, hm, henv, State.nextDraw_cons hscript]

/-- Settles O27: the platform's outcome is one that OPEN turns into the error kind, and nothing stops that failure. -/
theorem openReportsThePlatformFailure : Obligations.OpenReportsThePlatformFailure := by
  intro hi f s o k rest hs hclosed hm hscript hok
  have hk : connKind o = some k := by
    rcases hok with ⟨rfl, rfl⟩ | ⟨rfl, rfl⟩ | ⟨rfl, rfl⟩ | ⟨rfl, rfl⟩ <;> rfl
  let q := encode (.openStream hi f)
  have htick : (s.accept q [.openStream]).tick = State.completeFail { s.accept q [.openStream] with script := rest }
      (startRun (opField q) []) (.transport k none) :=
    (State.tick_closed (s := s.accept q [.openStream]) (r := startRun (opField q) [.openStream]) rfl hm hclosed hscript).trans
      ((State.openStream_failed (s := { s.accept q [.openStream] with script := rest }) hclosed hk _).trans
        (State.failWith_of_unwind_none (r := startRun (opField q) []) rfl _ _))
  have hrun : BusyRun 1 (s.accept q [.openStream]) _ := .step rfl (.refl _)
  rw [htick] at hrun
  refine congrArg _ ((State.request_run hs hrun rfl (by decide)).trans ?_)
  rw [State.completeFail, reportedFtWarn_of_not_ftw rfl]
  rfl

/-! ## SEND_COMMAND -/

/-- The report of a Pass of SEND_COMMAND or SEND_COMMANDS holds the bytes read (R28, R263). -/
theorem passReport_bytes {r : Run} (h : r.op = 3#4 ∨ r.op = 4#4) (hl : r.buf.length ≤ respCap) :
    passReport r = { Report.passed with resp := r.buf } := by
  rcases h with h | h <;>
    simp [passReport, Report.passed, returnsBytes, returnsWord, returnsIdentity, h, List.take_of_length_le hl]

theorem command_len_le (c : Command) : c.len.toNat ≤ 255 := Nat.le_of_lt_succ c.len.isLt

/-- A request for one Command whose response is there (R142). -/
theorem State.request_send {s : State} {q : Word} {c : Command} {rest : List Draw} {resp rx : List Byte}
    (hq : opField q = 3#4) (h : s.Ready (resp.length + 6) rest) (hl : resp.length = c.len.toNat) (hrx : s.rx = resp ++ rx) :
    s.request q (sendActs c) = (s.exchanged rest c.bytes rx 0).reports q { Report.passed with resp := resp } false := by
  have hlen := command_len_le c
  have hstill := h.calm.still q (sendActs c)
  rw [hrx] at hstill
  have hrun := BusyRun.exchange (s := s.accept q (sendActs c)) (rest := rest) (n := 1) (tx := s.tx) (pend := s.txPending)
    (now := s.now) (op := 3#4) (todo := []) (buf := []) (v := 0#16) (ws := []) (id := none) (ftw := false) h.isOpen hstill hl c.b1
  rw [← hrx, show 1 + (5 + resp.length) = resp.length + 6 by omega] at hrun
  rw [State.request_pass h.idle h.calm hq hrun (by rw [hrx]; simp) (by simp only [tickFuel]; omega),
    passReport_bytes (.inl rfl) (by simp only [List.nil_append, respCap]; omega), reportedFtWarn_of_not_ftw rfl]
  rfl

/-- Settles O30. -/
theorem sendCommandResult : Obligations.SendCommandResult := by
  intro len b2 b1 f s rest resp rx h hl hrx
  exact congrArg _ (State.request_send (c := ⟨len, b1, b2⟩) (Laws.requestWord_op _ f 3#4) (hl ▸ h) hl hrx)

theorem sendWord_op (c : Command) : opField (sendWord c) = 3#4 := Laws.requestWord_op _ 0#1 3#4

/-- The request word of the pseudo-instructions of R107. -/
theorem sendWord_eq (c : Command) : sendWord c = c.len ++ c.b2 ++ c.b1 ++ 0x03#8 := by
  rw [sendWord, requestWord, BitVec.append_assoc, BitVec.append_assoc]
  rfl

/-- Settles O35: a frame row with no operation running is the request for its Command. -/
theorem framesAsRequests : Obligations.FramesAsRequests := by
  intro i s rest resp rx hi hl hrx h
  rw [exec_of_cmd hi]
  have hsend : s.sendFrame i.command = s.request (sendWord i.command) (sendActs i.command) := by
    simp only [State.sendFrame, h.idle]
  rw [hsend, State.request_send (sendWord_op _) h hl hrx, ← sendWord_eq]
  rfl

/-! ## Frames on a closed stream -/

/-- A frame on a closed stream fails with NOT_OPEN (R141). -/
theorem State.act_frame_closed {s : State} (hclosed : s.stream.isOpen = false) (r : Run) (d : Draw) (c : Command) (rep : Byte) :
    s.act r d (.frame c rep) = s.failWith r (.transport .notOpen (some rep)) :=
  if_neg (Bool.eq_false_iff.mp hclosed)

/-- A request whose first position is a frame, on a closed stream (R141, R271). -/
theorem State.request_closed {s : State} {q : Word} {c : Command} {rep : Byte} {todo : List Act} {rest : List Draw}
    (hs : s.seq = none) (hclosed : s.stream.isOpen = false) (hc : s.Calm 1 rest) (hu : unwind todo = none) :
    s.request q (.frame c rep :: todo) =
      { s with script := rest }.reports q (.transportFailed .notOpen (some rep)) false :=
  State.request_fails_first hs hc hu fun _ r hu => State.act_frame_closed (hu ▸ hclosed) r _ c rep

/-- EXIT_AUTO_MODE begins with its select of window 0, with and without persist (R219). -/
theorem exitAutoModeActs_frame (p : Params) (persist : Bool) : ∃ todo,
    exitAutoModeActs p persist = .frame (selectCommand 0#1) winselAddr :: todo ∧ unwind todo = none := by
  cases persist <;> exact ⟨_, rfl, rfl⟩

/-- FULL_RESET begins with a select of window 0, with and without persist (R224, R225). -/
theorem fullResetActs_frame (p : Params) (persist : Bool) : ∃ todo,
    fullResetActs p persist = .frame (selectCommand 0#1) winselAddr :: todo ∧ unwind todo = none := by
  cases persist <;> exact ⟨_, rfl, rfl⟩

/-- Settles O60: each of the nine begins with a frame, and before its end nothing stops a failure of that frame. -/
theorem operationsOnAClosedStream : Obligations.OperationsOnAClosedStream := by
  rintro i a s rest hs hclosed hc ⟨hi, f, h⟩
  rcases h with ⟨rfl, rfl⟩ | ⟨rfl, rfl⟩ | ⟨rfl, rfl⟩ | ⟨rfl, rfl⟩ | ⟨rfl, rfl⟩ | ⟨rfl, rfl⟩ |
    ⟨rfl, rfl⟩ | ⟨rfl, rfl⟩ | ⟨rfl, rfl⟩
  case inr.inr.inr.inr.inr.inr.inl =>
    obtain ⟨todo, htodo, hu⟩ := exitAutoModeActs_frame s.params (f == 1#1)
    exact congrArg _ ((congrArg (s.request _) htodo).trans (State.request_closed hs hclosed hc hu))
  case inr.inr.inr.inr.inr.inr.inr.inl =>
    obtain ⟨todo, htodo, hu⟩ := fullResetActs_frame s.params (f == 1#1)
    exact congrArg _ ((congrArg (s.request _) htodo).trans (State.request_closed hs hclosed hc hu))
  all_goals exact congrArg _ (State.request_closed hs hclosed hc rfl)

/-! ## SEND_COMMAND and SEND_COMMANDS that fail -/

/-- Nothing in a list of commands stops a failure. -/
theorem unwind_sendListActs (cs : List Command) : unwind (sendListActs cs) = none := by
  induction cs with
  | nil => rfl
  | cons c cs ih => exact ih

/-- A request for Commands of which the first, in a calm state, meets a failing byte or flush (R136). -/
theorem State.request_ioFails {s : State} {q : Word} {c : Command} {rep : Byte} {todo : List Act} {rest : List Draw} {k : Nat}
    (hs : s.seq = none) (ho : s.stream.isOpen = true) (hc : s.Calm (k + 1) (Draw.ioFailure :: rest)) (hk : k ≤ 3)
    (hu : unwind todo = none) :
    s.request q (.frame c rep :: todo) = State.reports { s with
      script := rest, tx := s.tx ++ c.bytes.take k, txPending := s.txPending + k } q (.transportFailed .io (some rep)) false :=
  State.request_fails_after hs hc
    (BusyRun.frameFails (s := s.accept q (.frame c rep :: todo)) (todo := todo) (hc.still q _) ho hu c rep hk) rfl
    (by simp only [tickFuel]; omega)

/-- A request for Commands of which the first, in a calm state, gets only part of its response for the timeout (R138). -/
theorem State.request_short {s : State} {q : Word} {c : Command} {rep : Byte} {todo : List Act} {rest : List Draw} {ms : Nat}
    (hs : s.seq = none) (ho : s.stream.isOpen = true) (hc : s.Calm (s.rx.length + 5) (Draw.after ms :: rest))
    (hl : s.rx.length < c.len.toNat) (hms : s.stream.timeout.toNat ≤ ms) (hu : unwind todo = none) :
    s.request q (.frame c rep :: todo) =
      (s.exchanged rest c.bytes [] ms).reports q (.transportFailed .timeout (some rep)) false := by
  have hlen := command_len_le c
  exact State.request_fails_after hs hc
    (BusyRun.exchangeShort (s := s.accept q (.frame c rep :: todo)) (todo := todo) ho hu (hc.still q _) hl hms rep) rfl
    (by simp only [tickFuel]; omega)

/-- Settles O31. -/
theorem sendCommandFailures : Obligations.SendCommandFailures := by
  intro len b2 b1 f s rest hs
  refine ⟨fun hclosed hc => congrArg _ (State.request_closed hs hclosed hc rfl),
    fun k hk ho hc => congrArg _ (State.request_ioFails (c := ⟨len, b1, b2⟩) hs ho hc hk rfl),
    fun ms ho hl hms hc => congrArg _ (State.request_short (c := ⟨len, b1, b2⟩) hs ho hc hl hms rfl)⟩

/-! ## SEND_COMMANDS -/

/-- The bytes that the commands of a list expect, at most 255 each (R31). -/
theorem flatten_length_le {cs : List Command} {resps : List (List Byte)}
    (hl : resps.map List.length = cs.map (fun c => c.len.toNat)) : resps.flatten.length ≤ 255 * cs.length := by
  induction cs generalizing resps with
  | nil =>
    obtain rfl : resps = [] := List.map_eq_nil_iff.mp hl
    exact Nat.zero_le _
  | cons c cs ih =>
    cases resps with
    | nil => exact Nat.zero_le _
    | cons resp resps =>
      simp only [List.map_cons, List.cons.injEq] at hl
      have hfirst := command_len_le c
      have hlater := ih hl.2
      rw [← hl.1] at hfirst
      simp only [List.flatten_cons, List.length_append, List.length_cons]
      omega

/-- A legal SEND_COMMANDS is the request for its commands (R95, R148). -/
theorem exec_sendCommands {n : Byte} (hn : n.toNat ≤ 8) (hi : Half) (f : BitVec 1) (s : State) :
    exec (.sendCommands hi n f) s =
      .next (s.request (encode (.sendCommands hi n f)) (sendListActs (s.commandList n.toNat))) :=
  congrArg _ (if_pos (decide_eq_true hn))

/-- SEND_COMMANDS has as many commands as its count says. -/
theorem State.commandList_length {n : Nat} (hn : n ≤ 8) (s : State) : (s.commandList n).length = n := by
  simp only [State.commandList, List.length_map, List.length_take, Vector.length_toList]
  omega

/-- Settles O32. -/
theorem sendCommandsResult : Obligations.SendCommandsResult := by
  intro hi n f s rest cs resps rx hn hcs hl hrx h
  have hlist : s.commandList n.toNat = cs := hcs.symm
  have hcount : cs.length = n.toNat := hlist ▸ State.commandList_length hn s
  have hbytes := flatten_length_le hl
  have hempty : cs = [] ↔ n.toNat = 0 := by rw [← hcount, List.length_eq_zero_iff]
  have hstill := h.calm.still (encode (.sendCommands hi n f)) (sendListActs cs)
  rw [hrx] at hstill
  have hrun := BusyRun.exchanges (s := s.accept (encode (.sendCommands hi n f)) (sendListActs cs)) (rest := rest) (n := 1)
    (tx := s.tx) (pend := s.txPending) (now := s.now) (op := 4#4) (todo := []) (buf := []) (v := 0#16) (ws := [])
    (id := none) (ftw := false) h.isOpen cs resps hl hstill
  rw [← hrx, List.append_nil, hcount, Nat.add_comm 1] at hrun
  have hq : opField (encode (.sendCommands hi n f)) = 4#4 := Laws.requestWord_op _ f 4#4
  rw [exec_sendCommands hn, hlist, State.request_pass h.idle h.calm hq hrun (by rw [hrx]; simp)
    (by simp only [tickFuel]; omega), passReport_bytes (.inr rfl) (by simp only [List.nil_append, respCap]; omega),
    reportedFtWarn_of_not_ftw rfl]
  simp only [hempty]
  rfl

/-- Settles O33: the commands before the failing one are a run of their own, and nothing in the list stops a failure. -/
theorem sendCommandsStopAtTheFirstFailure : Obligations.SendCommandsStopAtTheFirstFailure := by
  intro hi n f s rest pre post c resps hn hcs hl
  have hlist : s.commandList n.toNat = pre ++ c :: post := hcs
  have hcount : pre.length + (post.length + 1) = n.toNat := by
    rw [← State.commandList_length hn s, hlist, List.length_append, List.length_cons]
  have hbytes := flatten_length_le hl
  have hlen := command_len_le c
  have hacts : sendListActs (pre ++ c :: post) = sendListActs pre ++ (.frame c c.b1 :: sendListActs post) := by
    rw [sendListActs, List.flatMap_append]
    rfl
  rw [exec_sendCommands hn, hlist]
  have hpre := fun (ds : List Draw) (m : Nat) (rx : List Byte) (hrx : s.rx = resps.flatten ++ rx)
      (h : s.Ready (m + (5 * pre.length + resps.flatten.length)) ds) =>
    BusyRun.exchanges (s := s.accept (encode (.sendCommands hi n f)) (sendListActs (pre ++ c :: post))) (rest := ds) (n := m)
      (tx := s.tx) (rx := rx) (pend := s.txPending) (now := s.now) (op := opField (encode (.sendCommands hi n f)))
      (todo := .frame c c.b1 :: sendListActs post) (buf := []) (v := 0#16) (ws := [])
      (id := none) (ftw := false) h.isOpen pre resps hl (hrx ▸ h.calm.still _ _)
  refine ⟨fun part ms hrx hpart hms h => congrArg _ ?short, fun k rx hk hrx h => congrArg _ ?fails,
    fun hpre hs hclosed hc => congrArg _ ?closed⟩
  case closed =>
    subst hpre
    exact State.request_closed hs hclosed hc (unwind_sendListActs post)
  case fails =>
    have h' : s.Ready (k + 1 + (5 * pre.length + resps.flatten.length)) (Draw.ioFailure :: rest) := by
      rwa [show k + 1 + (5 * pre.length + resps.flatten.length) = 5 * pre.length + resps.flatten.length + 1 + k by omega]
    have hfails := BusyRun.frameFails (s := s.accept (encode (.sendCommands hi n f)) (sendListActs (pre ++ c :: post)))
      (rest := rest) (tx := s.tx ++ pre.flatMap Command.bytes) (rx := rx) (pend := if pre = [] then s.txPending else 0)
      (now := s.now) (op := opField (encode (.sendCommands hi n f))) (todo := sendListActs post) (buf := [] ++ resps.flatten)
      (v := 0#16) (ws := []) (id := none) (ftw := false) ((hrx ▸ h.calm.still _ _ : State.Still _ _).tail) h.isOpen
      (unwind_sendListActs post) c c.b1 hk
    have hrun := (hpre _ _ rx hrx h').trans hfails
    rw [← hrx, ← hacts] at hrun
    refine (State.request_fails_after h.idle h'.calm hrun rfl (by simp only [tickFuel]; omega)).trans ?_
    have hpend : (if pre = [] then s.txPending else 0) + k = if pre = [] then s.txPending + k else k := by split <;> simp
    rw [hpend]
    rfl
  case short =>
    have h' : s.Ready (part.length + 5 + (5 * pre.length + resps.flatten.length)) (Draw.after ms :: rest) := by
      rwa [show part.length + 5 + (5 * pre.length + resps.flatten.length) =
        5 * (pre.length + 1) + resps.flatten.length + part.length by omega]
    have hfails := BusyRun.exchangeShort (s := s.accept (encode (.sendCommands hi n f)) (sendListActs (pre ++ c :: post)))
      (rest := rest) (tx := s.tx ++ pre.flatMap Command.bytes) (part := part) (pend := if pre = [] then s.txPending else 0)
      (now := s.now) (op := opField (encode (.sendCommands hi n f))) (todo := sendListActs post) (buf := [] ++ resps.flatten)
      (v := 0#16) (ws := []) (id := none) (ftw := false) h.isOpen (unwind_sendListActs post) (c := c)
      ((hrx ▸ h.calm.still _ _ : State.Still _ _).tail) hpart hms c.b1
    have hrun := (hpre _ _ part hrx h').trans hfails
    rw [← hrx, ← hacts] at hrun
    refine (State.request_fails_after h.idle h'.calm hrun rfl (by simp only [tickFuel]; omega)).trans ?_
    rw [State.exchanged, List.flatMap_append, List.flatMap_singleton, List.append_assoc]
    rfl

end Sys2Proof.Machine

/-! SUPPORT. A command frame and a response in a running operation (R71, R141, R166). -/

namespace Sys2Proof.Machine

section
variable {s : State} {rest : List Draw} {n m : Nat} {tx rx : List Byte} {pend now : Nat}
  {op : BitVec 4} {todo : List Act} {buf : List Byte} {v : Half} {ws : List Half} {id : Option Identity} {ftw : Bool}

/-- One calm step of a frame on the wire, before the positions after it. -/
theorem runFrame_act (h : s.Still rx.length) {a : Act} {acts : List Act} {t : State} {k : Nat} (ha : a.isWire = true)
    (hk : k ≤ acts.length)
    (he : (s.mid rest n tx rx pend now ⟨op, acts, buf, v, ws, id, ftw⟩).act ⟨op, acts, buf, v, ws, id, ftw⟩
      Draw.quiet a = t) :
    runFrame (m + 1) k (s.mid rest (n + 1) tx rx pend now ⟨op, a :: acts, buf, v, ws, id, ftw⟩) = runFrame m k t := by
  have hwire : (s.mid rest (n + 1) tx rx pend now ⟨op, a :: acts, buf, v, ws, id, ftw⟩).onWire k = true := by
    have hlt : k < (a :: acts).length := Nat.lt_succ_of_le hk
    simp only [State.onWire, State.mid, decide_eq_true hlt, List.head?_cons, Option.any_some, ha, Bool.and_self]
  rw [runFrame, if_pos hwire, State.mid_tick h, ← he]
  rfl

/-- A frame that has ended is not on the wire. -/
theorem runFrame_ended (m : Nat) :
    runFrame m todo.length (s.mid rest n tx rx pend now ⟨op, todo, buf, v, ws, id, ftw⟩) =
      s.mid rest n tx rx pend now ⟨op, todo, buf, v, ws, id, ftw⟩ := by
  cases m with
  | zero => rfl
  | succ m => exact if_neg (by simp [State.onWire, State.mid])

/-- The response of a frame, its bytes there (R138). -/
theorem runFrame_rxRead {last : Nat} {rep : Byte} {resp : List Byte} (hne : resp ≠ []) (h : s.Still (resp ++ rx).length)
    (hm : resp.length ≤ m) :
    runFrame m todo.length (s.mid rest (n + resp.length) tx (resp ++ rx) pend now
        ⟨op, .rx resp.length last rep :: todo, buf, v, ws, id, ftw⟩) =
      s.mid rest n tx rx pend now ⟨op, todo, buf ++ resp, v, ws, id, ftw⟩ := by
  induction resp generalizing buf last m with
  | nil => exact absurd rfl hne
  | cons b bs ih =>
    obtain ⟨m, rfl⟩ : ∃ m', m = m' + 1 := ⟨m - 1, by simp only [List.length_cons] at hm; omega⟩
    refine (runFrame_act (n := n + bs.length) h rfl (Nat.le_refl _) rfl).trans ?_
    cases bs with
    | nil => exact runFrame_ended m
    | cons c cs =>
      refine (ih (buf := buf ++ [b]) (last := now) (List.cons_ne_nil c cs) (h.mono (by simp))
        (Nat.le_of_succ_le_succ hm)).trans ?_
      rw [List.append_assoc]
      rfl

/-- The flush of a frame, and the response it waits for (R137). -/
theorem flush_mid (c : Command) (rep : Byte) :
    (s.mid rest n tx rx pend now ⟨op, todo, buf, v, ws, id, ftw⟩).act ⟨op, todo, buf, v, ws, id, ftw⟩ Draw.quiet
        (.flush c.len.toNat rep) =
      s.mid rest n tx rx 0 now
        ⟨op, if c.len.toNat = 0 then todo else .rx c.len.toNat now rep :: todo, buf, v, ws, id, ftw⟩ := by
  simp only [State.act, State.flushTx, Draw.quiet, Bool.false_eq_true, if_false]
  split <;> rfl

/-- A byte of a frame (R136). -/
theorem runFrame_tx (h : s.Still rx.length) (b rep : Byte) {acts : List Act} {k : Nat} (hk : k ≤ acts.length) :
    runFrame (m + 1) k (s.mid rest (n + 1) tx rx pend now ⟨op, .tx b rep :: acts, buf, v, ws, id, ftw⟩) =
      runFrame m k (s.mid rest n (tx ++ [b]) rx (pend + 1) now ⟨op, acts, buf, v, ws, id, ftw⟩) :=
  runFrame_act h rfl hk rfl

/-- The wire steps of a frame whose response is there (R136, R137, R138). -/
theorem runFrame_exchange {c : Command} {rep : Byte} {resp : List Byte} (h : s.Still (resp ++ rx).length)
    (hl : resp.length = c.len.toNat) (hm : resp.length ≤ m) :
    runFrame (m + 4) todo.length (s.mid rest (n + resp.length + 4) tx (resp ++ rx) pend now
        ⟨op, frameActs c rep ++ todo, buf, v, ws, id, ftw⟩) =
      s.mid rest n (tx ++ c.bytes) rx 0 now ⟨op, todo, buf ++ resp, v, ws, id, ftw⟩ := by
  refine (runFrame_tx (m := m + 3) (n := n + resp.length + 3) h c.b1 rep (Nat.le_add_right _ 3)).trans ?_
  refine (runFrame_tx (m := m + 2) (n := n + resp.length + 2) h c.b2 rep (Nat.le_add_right _ 2)).trans ?_
  refine (runFrame_tx (m := m + 1) (n := n + resp.length + 1) h term rep (Nat.le_add_right _ 1)).trans ?_
  refine (runFrame_act h rfl (Nat.le_refl _) (flush_mid c rep)).trans ?_
  have hsent : tx ++ [c.b1] ++ [c.b2] ++ [term] = tx ++ c.bytes := by
    rw [List.append_assoc, List.append_assoc]
    rfl
  rw [hsent, ← hl]
  cases resp with
  | nil =>
    rw [List.append_nil]
    exact runFrame_ended m
  | cons b bs => exact runFrame_rxRead (List.cons_ne_nil b bs) h hm

end

/-- Settles O34: the frame row stands in for the frame at the head of the operation, and runs through its wire steps. -/
theorem framesInAnOperation : Obligations.FramesInAnOperation := by
  intro i s r c rep todo rest resp rx hi hs hr ho hl hrx hc
  obtain ⟨op, todo', buf, v, ws, id, ftw⟩ := r
  obtain rfl : todo' = .frame c rep :: todo := hr
  have hlen := command_len_le i.command
  have hstill : s.Still (resp ++ rx).length := ⟨hc.meddle, hc.held, hrx ▸ hc.fifo⟩
  have hstart : State.tick { s with seq := some ⟨op, .frame i.command rep :: todo, buf, v, ws, id, ftw⟩ } =
      s.mid rest (resp.length + 4) s.tx (resp ++ rx) s.txPending s.now
        ⟨op, frameActs i.command rep ++ todo, buf, v, ws, id, ftw⟩ := by
    have hmid : { s with seq := some (⟨op, .frame i.command rep :: todo, buf, v, ws, id, ftw⟩ : Run) } =
        s.mid rest (resp.length + 4 + 1) s.tx (resp ++ rx) s.txPending s.now
          ⟨op, .frame i.command rep :: todo, buf, v, ws, id, ftw⟩ := by
      rw [State.mid, ← hrx, show resp.length + 4 + 1 = 5 + resp.length by omega, ← hc.script]
    rw [hmid, State.mid_tick hstill]
    exact if_pos ho
  have hframe : s.sendFrame i.command = runFrame tickFuel todo.length
      (State.tick { s with seq := some ⟨op, .frame i.command rep :: todo, buf, v, ws, id, ftw⟩ }) := by
    simp only [State.sendFrame, hs]
    rfl
  obtain ⟨m, hm, hfuel⟩ : ∃ m, resp.length ≤ m ∧ tickFuel = m + 4 := ⟨tickFuel - 4, by simp only [tickFuel]; omega, rfl⟩
  have hrun := runFrame_exchange (s := s) (rest := rest) (n := 0) (tx := s.tx) (pend := s.txPending) (now := s.now) (op := op)
    (todo := todo) (buf := buf) (v := v) (ws := ws) (id := id) (ftw := ftw) (rep := rep) hstill hl hm
  rw [exec_of_cmd hi, hframe, hstart, hfuel]
  exact congrArg _ ((Nat.zero_add resp.length ▸ hrun).trans rfl)

/-- Settles O36. -/
theorem responseAtTheParser : Obligations.ResponseAtTheParser := by
  intro e m l t s r rep todo rest hs hr hc
  obtain ⟨op, todo', buf, v, ws, id, ftw⟩ := r
  obtain rfl : todo' = .parse rep :: todo := hr
  have htake : s.takeResponse e m l t = State.tick { s with seq := some ⟨op, .parse rep :: todo, [e, m, l, t], v, ws, id, ftw⟩ } := by
    simp only [State.takeResponse, hs]
  have hmid : { s with seq := some (⟨op, .parse rep :: todo, [e, m, l, t], v, ws, id, ftw⟩ : Run) } =
      s.mid rest (0 + 1) s.tx s.rx s.txPending s.now ⟨op, .parse rep :: todo, [e, m, l, t], v, ws, id, ftw⟩ := by
    rw [State.mid, ← hc.script]
  refine congrArg Host.Outcome.next (htake.trans ?_)
  rw [hmid, State.mid_tick ⟨hc.meddle, hc.held, hc.fifo⟩]
  rfl

/-- Away from the parser a response is its bytes arriving (R37). -/
theorem State.takeResponse_arrives {s : State} (h : ∀ r rep rest, s.seq = some r → r.todo ≠ .parse rep :: rest)
    (e m l t : Byte) : s.takeResponse e m l t = s.arrive [e, m, l, t] := by
  unfold State.takeResponse
  split
  · split
    · exact absurd ‹_› (h _ _ _ ‹_›)
    · rfl
  · rfl

/-- Settles O37. -/
theorem responseArrives : Obligations.ResponseArrives := by
  intro e m l t s h
  have htake := State.takeResponse_arrives h e m l t
  exact ⟨fun ho hd => congrArg _ (htake.trans (State.arrive_unbounded ho hd _)),
    fun hclosed => congrArg _ (htake.trans (State.arrive_closed hclosed _))⟩

end Sys2Proof.Machine

/-! SUPPORT. The reset spell and the register read as requests (R165, R168, R170). -/

namespace Sys2Proof.Machine

/-- A request whose steps but the last lead, in a calm state, to an operation with nothing left to do and no value to
report (R34, R263). -/
theorem State.request_passed {s : State} {q : Word} {todo : List Act} {k : Nat} {rest : List Draw} {n : Nat}
    {tx rx : List Byte} {now : Nat} {op : BitVec 4} {buf : List Byte} {v : Half} {ws : List Half}
    (hq : opField q = op) (hop : returnsBytes op = false ∧ returnsWord op = false ∧ returnsIdentity op = false)
    (hs : s.seq = none) (hc : s.Calm n rest)
    (h : BusyRun k ((s.accept q todo).mid rest n s.tx s.rx s.txPending s.now ⟨op, todo, [], 0#16, [], none, false⟩)
      ((s.accept q todo).mid rest 1 tx rx 0 now ⟨op, [], buf, v, ws, none, false⟩))
    (hr : rx.length ≤ s.rx.length) (hk : k < tickFuel) :
    s.request q todo = State.reports { s with script := rest, tx := tx, rx := rx, txPending := 0, now := now } q .passed
      false := by
  rw [State.request_pass hs hc hq h hr hk, passReport_plain hop.1 hop.2.1 hop.2.2, reportedFtWarn_of_not_ftw rfl]

/-- What is left of a FIFO whose first bytes are taken is no longer than it was. -/
theorem length_le_of_eq_append {l m rx : List Byte} (h : l = m ++ rx) : rx.length ≤ l.length := by
  rw [h, List.length_append]
  omega

/-- Settles O38. -/
theorem resetSensorResult : Obligations.ResetSensorResult := by
  refine ⟨fun hi f s rest h => ?_, fun hi f s j k hj hk => ?_⟩
  · have hrun := BusyRun.resetSpell (s := s.accept (encode (.resetSensor hi f)) resetSpellActs) (rest := rest) (n := 1)
      (tx := s.tx) (rx := s.rx) (pend := s.txPending) (now := s.now) (op := 5#4) (todo := []) (buf := []) (v := 0#16)
      (ws := []) (id := none) (ftw := false) (h.calm.still _ _) h.isOpen
    rw [List.append_assoc, List.append_assoc, List.append_nil] at hrun
    exact congrArg _ (State.request_passed (Laws.requestWord_op hi f 5#4) (by decide) h.idle h.calm hrun (Nat.le_refl _)
      (by decide))
  · have hlen := spellFailsBeats_length (k := k) hj
    exact State.completes_fail (f := .transport .io (some 0xFF)) (Laws.requestWord_op hi f 5#4) rfl
      (by simp only [tickFuel]; omega) fun u hu _ _ => ⟨_, Falls.spell (todo := []) hu hj hk, rfl, rfl⟩

/-- The six bytes of a register read are those of its two Commands (R161, R165). -/
theorem State.readBytes_eq (s : State) (w : BitVec 1) (a : Byte) :
    (selectCommand w).bytes ++ (readCommand s.params a).bytes = s.readBytes (w.zeroExtend 8) a := rfl

/-- Settles O39. -/
theorem readRegisterWordResult : Obligations.ReadRegisterWordResult := by
  intro hi a w s rest ans rx h hrx
  have hstill := h.calm.still (encode (.readRegisterWord hi a w)) (readRegisterActs s.params a w)
  rw [hrx] at hstill
  have hrun := BusyRun.readRegister (s := s.accept (encode (.readRegisterWord hi a w)) (readRegisterActs s.params a w))
    (rest := rest) (n := 1) (tx := s.tx) (pend := s.txPending) (now := s.now) (op := 6#4) (todo := []) (v := 0#16)
    (ws := []) (id := none) (ftw := false) h.isOpen hstill (p := s.params) a w
  rw [List.append_nil, ← hrx, List.append_assoc, State.readBytes_eq] at hrun
  have hq : opField (encode (.readRegisterWord hi a w)) = 6#4 := Laws.requestWord_op _ w 6#4
  exact congrArg _ (State.request_pass h.idle h.calm hq hrun (length_le_of_eq_append hrx) (by decide))

/-- A step of a register read whose read frame fails, its select sent (R165). -/
theorem State.request_readFails {s : State} {q : Word} {w : BitVec 1} {a : Byte} {rest : List Draw} {n k : Nat} {d : Draw}
    {tx rx : List Byte} {pend now : Nat} {f : Failure} (hs : s.seq = none) (ho : s.stream.isOpen = true)
    (hc : s.Calm (n + 5) (d :: rest)) (hk : k + 5 ≤ tickFuel)
    (h : BusyRun k ((s.accept q (readRegisterActs s.params a w)).mid (d :: rest) n (s.tx ++ (selectCommand w).bytes) s.rx 0
        s.now ⟨opField q, readUnselectedActs s.params a, [], 0#16, [], none, false⟩)
      (((s.accept q (readRegisterActs s.params a w)).mid rest 0 tx rx pend now
        ⟨opField q, [.parse a], [], 0#16, [], none, false⟩).completeFail
          ⟨opField q, [.parse a], [], 0#16, [], none, false⟩ f)) :
    s.request q (readRegisterActs s.params a w) =
      State.reports { s with script := rest, tx := tx, rx := rx, txPending := pend, now := now } q (failReport f) false := by
  have hselect := BusyRun.frame (s := s.accept q (readRegisterActs s.params a w)) (rest := d :: rest) (n := n) (tx := s.tx)
    (rx := s.rx) (pend := s.txPending) (now := s.now) (op := opField q) (todo := readUnselectedActs s.params a) (buf := [])
    (v := 0#16) (ws := []) (id := none) (ftw := false) (hc.still _ _) ho (c := selectCommand w) rfl a
  exact State.request_fails_after hs hc (hselect.trans h) rfl (by omega)

/-- Settles O40. -/
theorem readRegisterWordFailures : Obligations.ReadRegisterWordFailures := by
  intro hi a w s rest hs
  refine ⟨fun hclosed hc => congrArg _ (State.request_closed hs hclosed hc rfl),
    fun k hk ho hc => congrArg _ (State.request_ioFails (c := selectCommand w) hs ho hc hk rfl),
    fun k hk ho hc => ?readFails, fun ms ho hl hms hc => ?short⟩
  case readFails =>
    refine congrArg _ ((State.request_readFails (n := k + 1) hs ho hc (k := k + 2) (by simp only [tickFuel]; omega)
      (.frameFails (hc.still _ _) ho rfl (readCommand s.params a) a hk)).trans ?_)
    simp only [Nat.zero_add]
    rfl
  case short =>
    refine congrArg _ ((State.request_readFails (n := s.rx.length + 5) hs ho hc (k := s.rx.length + 6)
      (by simp only [tickFuel]; omega)
      (.exchangeShort (s := s.accept (encode (.readRegisterWord hi a w)) (readRegisterActs s.params a w)) (part := s.rx)
        (c := readCommand s.params a) ho rfl (hc.still _ _) hl hms a)).trans ?_)
    rw [List.append_assoc, State.readBytes_eq]
    rfl

end Sys2Proof.Machine

/-! SUPPORT. DETECT_IDENTITY: its eight words, the record they decode to, its closing select (R182 to R186). -/

namespace Sys2Proof.Machine

/-! ## The record -/

/-- No more characters than the words hold. -/
theorem textChars_length_le (ws : List Half) : (textChars ws).length ≤ 2 * ws.length := by
  refine Nat.le_trans (List.length_filter_le _ _) (Nat.le_of_eq ?_)
  induction ws with
  | nil => rfl
  | cons w ws ih =>
    rw [List.flatMap_cons, List.length_append, ih, List.length_cons]
    simp only [decodeWord, List.length_cons, List.length_nil]
    omega

theorem trim_length_le (ws s : List Byte) : (trim ws s).length ≤ s.length := by
  obtain ⟨front, back, hs, -⟩ := trim_split ws s
  have hlen := congrArg List.length hs
  simp only [List.length_append] at hlen
  omega

/-- A decoded string is no longer than its words (R183, R184). -/
theorem decodeText_length_le {p : Params} {ws : List Half} {t : List Byte} (h : decodeText p ws = some t) :
    t.length ≤ 2 * ws.length := by
  have hkept : (keptChars p ws).length ≤ (textChars ws).length := by
    unfold keptChars
    split
    · exact List.length_filter_le _ _
    · exact Nat.le_refl _
  by_cases hbad : p.nonAscii = .reject ∧ (textChars ws).any isNonAscii = true
  · rw [decodeText_rejected hbad.1 hbad.2] at h
    nomatch h
  · rw [decodeText_accepted fun hn => Bool.eq_false_iff.mpr fun hany => hbad ⟨hn, hany⟩, Option.some.injEq] at h
    subst h
    exact Nat.le_trans (trim_length_le _ _) (Nat.le_trans hkept (textChars_length_le ws))

/-- The product ID of a raw string is the one the table names (R185). -/
theorem productName_of_names {p : Params} {raw product : List Byte} (h : p.names raw product) :
    productName p raw = product := by
  have hskip : ∀ rows : List (List Byte × List Byte), (∀ row ∈ rows, row.1 ≠ raw) →
      rows.find? (fun row => row.1 == raw) = none := fun rows hrows =>
    List.find?_eq_none.mpr fun row hrow => by simpa using hrows row hrow
  unfold productName
  rcases h with ⟨before, after, htable, hbefore⟩ | ⟨rfl, hnone⟩
  · rw [htable, List.find?_append, hskip before hbefore, Option.none_or]
    have hrow : ((raw, product) :: after).find? (fun row => row.1 == raw) = some (raw, product) :=
      List.find?_cons_of_pos (beq_self_eq_true raw)
    rw [hrow]
  · rw [hskip _ hnone]

/-- The identity record of eight words whose strings decode and fit (R181, R185, R186). -/
theorem identityOf_decoded {p : Params} {ws : List Half} {raw product serial : List Byte} (hws : ws.length = 8)
    (hraw : decodeText p (ws.take 4) = some raw) (hserial : decodeText p (ws.drop 4) = some serial)
    (hnames : p.names raw product) (hproduct : product.length ≤ 16) :
    identityOf p ws = some { raw := raw, product := product, serial := serial } := by
  have hrawLength := decodeText_length_le hraw
  have hserialLength := decodeText_length_le hserial
  rw [List.length_take] at hrawLength
  rw [List.length_drop] at hserialLength
  simp only [identityOf, hraw, hserial, productName_of_names hnames, idCap]
  rw [List.take_of_length_le (by omega), List.take_of_length_le hproduct, List.take_of_length_le (by omega)]

/-- A string that is rejected rejects the record (R184, R186). -/
theorem identityOf_rejected {p : Params} {ws : List Half}
    (h : decodeText p (ws.take 4) = none ∨ decodeText p (ws.drop 4) = none) : identityOf p ws = none := by
  unfold identityOf
  rcases h with h | h
  · simp only [h]
  · simp only [h]
    split
    · nomatch ‹none = some _›
    · rfl

/-- The report of a DETECT_IDENTITY that passes (R26, R263). -/
theorem passReport_identity {r : Run} {i : Identity} (h : r.op = 7#4) (hi : r.ident = some i) :
    passReport r = { Report.passed with valid := true, ident := some i } := by
  simp [passReport, Report.passed, returnsBytes, returnsWord, returnsIdentity, h, hi]

/-! ## The words -/

/-- The eight addresses of R182. -/
def identityAddrs : List Byte := [0x6A, 0x6C, 0x6E, 0x70, 0x74, 0x76, 0x78, 0x7A]

theorem length_le_of_identityAddrs {a : Byte} {addrs later : List Byte} (h : identityAddrs = addrs ++ a :: later) :
    addrs.length ≤ 8 := by
  have hlen := congrArg List.length h
  simp only [List.length_append, identityAddrs, List.length_cons, List.length_nil] at hlen
  omega

/-- The reads of DETECT_IDENTITY (R186). -/
def readWordsActs (p : Params) (addrs : List Byte) : List Act :=
  addrs.flatMap fun a => readRegisterActs p a 1#1 ++ [.keepWord]

theorem detectIdentityActs_eq (p : Params) :
    detectIdentityActs p = readWordsActs p identityAddrs ++ [.decodeIdentity, .enter .courtesy] := rfl

theorem readWordsActs_cons (p : Params) (a : Byte) (addrs : List Byte) (todo : List Act) :
    readWordsActs p (a :: addrs) ++ todo = readRegisterActs p a 1#1 ++ (.keepWord :: (readWordsActs p addrs ++ todo)) := by
  simp only [readWordsActs, List.flatMap_cons, List.append_assoc, List.cons_append, List.nil_append]

theorem readWordsActs_append (p : Params) (addrs later : List Byte) :
    readWordsActs p (addrs ++ later) = readWordsActs p addrs ++ readWordsActs p later := List.flatMap_append

/-- Nothing in DETECT_IDENTITY's reads, nor in what comes after them, stops a failure. -/
theorem unwind_readWordsActs (p : Params) (addrs : List Byte) :
    unwind (readWordsActs p addrs ++ [.decodeIdentity, .enter .courtesy]) = none := by
  induction addrs with
  | nil => rfl
  | cons a addrs ih =>
    rw [readWordsActs_cons]
    exact ih

section
variable {s : State} {op : BitVec 4} {todo : List Act} {v : Half} {ws : List Half} {id : Option Identity} {ftw : Bool}

/-- Words that are answered (R182, R186): 16 steps each. -/
theorem BusyRun.readWords {rest : List Draw} {n : Nat} {tx rx : List Byte} {pend now : Nat} (ho : s.stream.isOpen = true)
    (addrs : List Byte) (answers : List Answer) (hl : answers.length = addrs.length)
    (h : s.Still (answers.flatMap Answer.bytes ++ rx).length) :
    ∃ v', BusyRun (16 * addrs.length)
      (s.mid rest (n + 16 * addrs.length) tx (answers.flatMap Answer.bytes ++ rx) pend now
        ⟨op, readWordsActs s.params addrs ++ todo, [], v, ws, id, ftw⟩)
      (s.mid rest n (tx ++ addrs.flatMap (s.readBytes 0x01)) rx (if addrs = [] then pend else 0) now
        ⟨op, todo, [], v', ws ++ answers.map (·.value), id, ftw⟩) := by
  induction addrs generalizing answers tx pend v ws with
  | nil =>
    obtain rfl : answers = [] := List.length_eq_zero_iff.mp hl
    exact ⟨v, by simpa [readWordsActs] using BusyRun.refl _⟩
  | cons a addrs ih =>
    obtain ⟨ans, answers, rfl⟩ : ∃ ans answers', answers = ans :: answers' := List.exists_cons_of_length_eq_add_one hl
    have hfirst := BusyRun.readRegister (rest := rest) (n := n + 16 * addrs.length + 1) (tx := tx) (pend := pend) (now := now)
      (op := op) (todo := .keepWord :: (readWordsActs s.params addrs ++ todo)) (v := v) (ws := ws) (id := id) (ftw := ftw)
      (rx := answers.flatMap Answer.bytes ++ rx) ho (a := ans) (by simpa only [List.flatMap_cons, List.append_assoc] using h)
      (p := s.params) a 1#1
    have hstill : s.Still (answers.flatMap Answer.bytes ++ rx).length := h.mono (by simp)
    have hkeep : BusyRun 1
        (s.mid rest (n + 16 * addrs.length + 1) (tx ++ (selectCommand 1#1).bytes ++ (readCommand s.params a).bytes)
          (answers.flatMap Answer.bytes ++ rx) 0 now
          ⟨op, .keepWord :: (readWordsActs s.params addrs ++ todo), [], ans.value, ws, id, ftw⟩)
        (s.mid rest (n + 16 * addrs.length) (tx ++ (selectCommand 1#1).bytes ++ (readCommand s.params a).bytes)
          (answers.flatMap Answer.bytes ++ rx) 0 now
          ⟨op, readWordsActs s.params addrs ++ todo, [], ans.value, ws ++ [ans.value], id, ftw⟩) := .act hstill rfl
    obtain ⟨v', hlater⟩ := ih (tx := tx ++ (selectCommand 1#1).bytes ++ (readCommand s.params a).bytes) (pend := 0)
      (v := ans.value) (ws := ws ++ [ans.value]) answers (Nat.succ.inj hl) hstill
    refine ⟨v', ?_⟩
    have hrun := (hfirst.trans hkeep).trans hlater
    have hwindow : (1#1).zeroExtend 8 = (0x01 : Byte) := by decide
    rw [ite_self, List.append_assoc tx, State.readBytes_eq, hwindow, ← readWordsActs_cons, List.append_assoc ws,
      show 15 + 1 + 16 * addrs.length = 16 * (a :: addrs).length by simp only [List.length_cons]; omega,
      show n + 16 * addrs.length + 1 + 15 = n + 16 * (a :: addrs).length by simp only [List.length_cons]; omega,
      List.append_assoc tx] at hrun
    simpa only [List.flatMap_cons, List.map_cons, List.singleton_append, List.append_assoc,
      if_neg (List.cons_ne_nil a addrs)] using hrun

/-- The eight reads of DETECT_IDENTITY, answered (R182): 128 steps. -/
theorem BusyRun.readIdentity {rest : List Draw} {n : Nat} {tx rx : List Byte} {pend now : Nat} (ho : s.stream.isOpen = true)
    {answers : List Answer} (hl : answers.length = 8) (h : s.Still (answers.flatMap Answer.bytes ++ rx).length) :
    ∃ v', BusyRun 128
      (s.mid rest (n + 1 + 128) tx (answers.flatMap Answer.bytes ++ rx) pend now
        ⟨op, detectIdentityActs s.params, [], v, ws, id, ftw⟩)
      (s.mid rest (n + 1) (tx ++ identityAddrs.flatMap (s.readBytes 0x01)) rx 0 now
        ⟨op, [.decodeIdentity, .enter .courtesy], [], v', ws ++ answers.map (·.value), id, ftw⟩) :=
  BusyRun.readWords ho identityAddrs answers hl h

/-- The record of words that are accepted (R186). -/
theorem BusyRun.decodeIdentity {rest : List Draw} {n : Nat} {tx rx : List Byte} {pend now : Nat} (h : s.Still rx.length)
    {i : Identity} (hi : identityOf s.params ws = some i) :
    BusyRun 1 (s.mid rest (n + 1) tx rx pend now ⟨op, .decodeIdentity :: todo, [], v, ws, id, ftw⟩)
      (s.mid rest n tx rx pend now ⟨op, todo, [], v, ws, some i, ftw⟩) := by
  refine .act h ?_
  have hid : identityOf (s.mid rest n tx rx pend now ⟨op, todo, [], v, ws, id, ftw⟩).params ws = some i := hi
  simp only [State.act, State.decodeIdentity, hid]
  rfl

/-- Words that are rejected (R184, R186). -/
theorem BusyRun.rejectIdentity {rest : List Draw} {n : Nat} {tx rx : List Byte} {pend now : Nat} (h : s.Still rx.length)
    (hu : unwind todo = none) (hi : identityOf s.params ws = none) :
    BusyRun 1 (s.mid rest (n + 1) tx rx pend now ⟨op, .decodeIdentity :: todo, [], v, ws, id, ftw⟩)
      ((s.mid rest n tx rx pend now ⟨op, todo, [], v, ws, id, ftw⟩).completeFail ⟨op, todo, [], v, ws, id, ftw⟩ .decode) := by
  refine .act h ?_
  have hid : identityOf (s.mid rest n tx rx pend now ⟨op, todo, [], v, ws, id, ftw⟩).params ws = none := hi
  simp only [State.act, State.decodeIdentity, hid]
  exact State.failWith_of_unwind_none (r := ⟨op, todo, [], v, ws, id, ftw⟩) hu _ _

/-- Where the reads of DETECT_IDENTITY come to the address `a`, they are its two frames next. -/
theorem detectIdentityActs_at (p : Params) {a : Byte} {addrs later : List Byte} (haddrs : identityAddrs = addrs ++ a :: later) :
    detectIdentityActs p = readWordsActs p addrs ++ (.frame (selectCommand 1#1) a :: .frame (readCommand p a) a ::
      (.parse a :: .keepWord :: (readWordsActs p later ++ [.decodeIdentity, .enter .courtesy]))) := by
  rw [detectIdentityActs_eq, haddrs, readWordsActs_append, List.append_assoc, readWordsActs_cons]
  rfl

/-- The reads of DETECT_IDENTITY up to one whose answer stays short (R138, R186). -/
theorem BusyRun.identityShort {rest : List Draw} {tx part : List Byte} {pend now : Nat} (ho : s.stream.isOpen = true)
    {answers : List Answer} {a : Byte} {addrs later : List Byte} {ms : Nat} (haddrs : identityAddrs = addrs ++ a :: later)
    (hl : answers.length = addrs.length) (h : s.Still (answers.flatMap Answer.bytes ++ part).length)
    (hshort : part.length < 4) (hms : s.stream.timeout.toNat ≤ ms) :
    ∃ r', r'.ftw = ftw ∧ BusyRun (16 * addrs.length + part.length + 11)
      (s.mid (Draw.after ms :: rest) (16 * addrs.length + part.length + 10) tx (answers.flatMap Answer.bytes ++ part) pend now
        ⟨op, detectIdentityActs s.params, [], v, ws, id, ftw⟩)
      ((s.mid rest 0 (tx ++ (addrs ++ [a]).flatMap (s.readBytes 0x01)) [] 0 (now + ms) r').completeFail r'
        (.transport .timeout (some a))) := by
  obtain ⟨v', hwords⟩ := BusyRun.readWords (rest := Draw.after ms :: rest) (n := part.length + 5 + 5) (tx := tx)
    (pend := pend) (now := now) (op := op)
    (todo := .frame (selectCommand 1#1) a :: .frame (readCommand s.params a) a ::
      (.parse a :: .keepWord :: (readWordsActs s.params later ++ [.decodeIdentity, .enter .courtesy])))
    (v := v) (ws := ws) (id := id) (ftw := ftw) ho addrs answers hl h
  have hu : unwind (.parse a :: .keepWord :: (readWordsActs s.params later ++ [.decodeIdentity, .enter .courtesy])) = none :=
    unwind_readWordsActs s.params later
  have hread := (hwords.trans (.frame h.tail ho (c := selectCommand 1#1) rfl a)).trans
    (.exchangeShort (c := readCommand s.params a) ho hu h.tail hshort hms a)
  have hbytes : tx ++ addrs.flatMap (s.readBytes 0x01) ++ (selectCommand 1#1).bytes ++ (readCommand s.params a).bytes =
      tx ++ (addrs ++ [a]).flatMap (s.readBytes 0x01) := by
    rw [List.append_assoc, State.readBytes_eq, List.append_assoc, List.flatMap_append, List.flatMap_singleton]
    rfl
  rw [← detectIdentityActs_at s.params haddrs, hbytes,
    show part.length + 5 + 5 + 16 * addrs.length = 16 * addrs.length + part.length + 10 by omega,
    show 16 * addrs.length + 5 + (part.length + 6) = 16 * addrs.length + part.length + 11 by omega] at hread
  exact ⟨_, rfl, hread⟩

/-- The word read is kept (R186). -/
theorem Leads.keepWord (h : s.Alone) :
    Leads s [.quiet] ⟨op, .keepWord :: todo, [], v, ws, id, ftw⟩ ⟨op, todo, [], v, ws ++ [v], id, ftw⟩ :=
  .quiet h fun _ => rfl

/-- Words that are answered, beat by beat (R182, R186). -/
theorem Leads.readWords (h : s.Alone) {p : Params} (hp : p = s.params) (addrs : List Byte) (answers : List Answer)
    (hl : answers.length = addrs.length) :
    ∃ v', Leads s ((addrs.zip answers).flatMap fun x => (Reading.answered x.2).tested p.readPad 0x01 x.1)
      ⟨op, readWordsActs p addrs ++ todo, [], v, ws, id, ftw⟩
      ⟨op, todo, [], v', ws ++ answers.map (·.value), id, ftw⟩ := by
  subst hp
  induction addrs generalizing s answers v ws with
  | nil =>
    obtain rfl : answers = [] := List.length_eq_zero_iff.mp hl
    exact ⟨v, by simpa [readWordsActs] using Leads.refl _ _⟩
  | cons a addrs ih =>
    obtain ⟨ans, answers, rfl⟩ : ∃ ans answers', answers = ans :: answers' := List.exists_cons_of_length_eq_add_one hl
    have hfirst := Leads.answered1 (op := op) (todo := .keepWord :: (readWordsActs s.params addrs ++ todo)) (v := v) (ws := ws)
      (id := id) (ftw := ftw) h rfl a ans
    have hkeep := Leads.keepWord (op := op) (todo := readWordsActs s.params addrs ++ todo) (v := ans.value) (ws := ws) (id := id)
      (ftw := ftw) (h.along ((Reading.answered ans).beats s.params.readPad 0x01 a))
    obtain ⟨v', hlater⟩ := ih (v := ans.value) (ws := ws ++ [ans.value])
      (h.along ((Reading.answered ans).beats s.params.readPad 0x01 a ++ [.quiet])) answers (Nat.succ.inj hl)
    rw [State.along_params, List.append_assoc ws] at hlater
    refine ⟨v', ?_⟩
    rw [List.zip_cons_cons, List.flatMap_cons, Reading.tested_answered, readWordsActs_cons]
    exact (hfirst.trans hkeep).trans hlater

/-- The reads, and the record of words that are accepted (R186). -/
theorem Leads.identity (h : s.Alone) {answers : List Answer} (hl : answers.length = 8) {i : Identity}
    (hi : identityOf s.params (answers.map (·.value)) = some i) :
    ∃ v', Leads s ((identityAddrs.zip answers).flatMap (fun x => (Reading.answered x.2).tested s.params.readPad 0x01 x.1) ++
        [.quiet])
      ⟨op, detectIdentityActs s.params, [], v, [], id, ftw⟩
      ⟨op, [.enter .courtesy], [], v', answers.map (·.value), some i, ftw⟩ := by
  obtain ⟨v', hwords⟩ := Leads.readWords (op := op) (todo := [.decodeIdentity, .enter .courtesy]) (v := v) (ws := []) (id := id)
    (ftw := ftw) h rfl identityAddrs answers hl
  have hdecode : ∀ u : State, u.Alone → u.params = s.params →
      Leads u [.quiet] ⟨op, [.decodeIdentity, .enter .courtesy], [], v', answers.map (·.value), id, ftw⟩
        ⟨op, [.enter .courtesy], [], v', answers.map (·.value), some i, ftw⟩ := fun u hu hp =>
    .quiet hu fun ds => by
      have hid : identityOf (u.going ds ⟨op, [.decodeIdentity, .enter .courtesy], [], v', answers.map (·.value), id,
          ftw⟩).params (answers.map (·.value)) = some i := by
        refine Eq.trans ?_ hi
        rw [← hp]
        rfl
      simp only [State.act, State.decodeIdentity, hid]
      rfl
  exact ⟨v', hwords.trans (hdecode _ (h.along _) (s.along_params _))⟩

/-- The reads up to one that fails (R186). -/
theorem Falls.identity (h : s.Alone) {answers : List Answer} {a : Byte} {addrs later : List Byte} {r : Reading}
    {f : Failure} (haddrs : identityAddrs = addrs ++ a :: later) (hl : answers.length = addrs.length)
    (hr : r.possible s.stream.timeout.toNat) (hf : r.failure a = some f) :
    ∃ r', Falls s ((addrs.zip answers).flatMap (fun x => (Reading.answered x.2).tested s.params.readPad 0x01 x.1) ++
        r.beats s.params.readPad 0x01 a) ⟨op, detectIdentityActs s.params, [], v, [], id, ftw⟩ r' f ∧
      unwind r'.todo = none ∧ r'.ftw = ftw := by
  obtain ⟨v', hwords⟩ := Leads.readWords (op := op)
    (todo := readWordsActs s.params (a :: later) ++ [.decodeIdentity, .enter .courtesy]) (v := v) (ws := []) (id := id)
    (ftw := ftw) h rfl addrs answers hl
  obtain ⟨bs, hbs⟩ : ∃ bs, bs = (addrs.zip answers).flatMap (fun x => (Reading.answered x.2).tested s.params.readPad 0x01 x.1) :=
    ⟨_, rfl⟩
  rw [← hbs] at hwords ⊢
  have hread := Falls.reading1 (op := op)
    (todo := .keepWord :: (readWordsActs s.params later ++ [.decodeIdentity, .enter .courtesy])) (v := v')
    (ws := [] ++ answers.map (·.value)) (id := id) (ftw := ftw) (h.along bs) (p := s.params) (s.along_params bs).symm a
    (by simpa using hr) hf
  rw [State.along_params, ← readWordsActs_cons] at hread
  have hall := hwords.falls hread
  rw [← List.append_assoc, ← readWordsActs_append, ← haddrs, ← detectIdentityActs_eq] at hall
  exact ⟨_, hall, unwind_readWordsActs _ later, rfl⟩

end

/-! ## The obligations -/

/-- The beats of words that are answered, no more than 16 each (R186). -/
theorem readWords_beats_length (pad : Byte) (xs : List (Byte × Answer)) :
    (xs.flatMap fun x => (Reading.answered x.2).tested pad 0x01 x.1).length ≤ 16 * xs.length := by
  induction xs with
  | nil => exact Nat.le_refl _
  | cons x xs ih =>
    have hfirst := Reading.tested_length pad 0x01 x.1 (r := .answered x.2) (timeout := 0) trivial
    simp only [List.flatMap_cons, List.length_append, List.length_cons] at ih ⊢
    omega

/-- The words of the eight answers. -/
theorem length_answerValues {answers : List Answer} (hl : answers.length = 8) : (answers.map (·.value)).length = 8 := by
  rw [List.length_map, hl]

/-- Settles O41. -/
theorem detectIdentityResult : Obligations.DetectIdentityResult := by
  refine ⟨.inl ⟨[], [], rfl, nofun⟩, ?_⟩
  intro hi f s answers raw product serial hl hraw hserial hnames hproduct
  have hid := identityOf_decoded (length_answerValues hl) hraw hserial hnames hproduct
  have hq : opField (encode (.detectIdentity hi f)) = 7#4 := Laws.requestWord_op hi f 7#4
  refine ⟨fun rest rx hrx h => ?calm, fun c hc => ?beats⟩
  case calm =>
    have hstill := h.calm.still (encode (.detectIdentity hi f)) (detectIdentityActs s.params)
    rw [hrx] at hstill
    obtain ⟨v', hwords⟩ := BusyRun.readIdentity (s := s.accept (encode (.detectIdentity hi f)) (detectIdentityActs s.params))
      (rest := rest) (n := 8) (tx := s.tx) (pend := s.txPending) (now := s.now) (op := 7#4) (v := 0#16) (ws := [])
      (id := none) (ftw := false) h.isOpen hl hstill
    have hrun := (hwords.trans (.decodeIdentity hstill.tail hid)).trans (.courtesy (n := 1) hstill.tail h.isOpen)
    rw [← hrx, List.append_assoc] at hrun
    refine congrArg _ ((State.request_pass h.idle h.calm hq hrun (length_le_of_eq_append hrx) (by decide)).trans ?_)
    rw [passReport_identity rfl rfl, reportedFtWarn_of_not_ftw rfl]
    rfl
  case beats =>
    have hlen := readWords_beats_length s.params.readPad (identityAddrs.zip answers)
    have hclose := courtesyBeats_length c
    have hzip : (identityAddrs.zip answers).length = 8 := by rw [List.length_zip, hl]; rfl
    refine State.completes_pass hq rfl ?_ rfl fun u hu hp _ => ?_
    · change ((identityAddrs.zip answers).flatMap _ ++ [Beat.quiet] ++ courtesyBeats c).length + 1 ≤ tickFuel
      simp only [List.length_append, List.length_singleton, tickFuel]
      omega
    · rw [← hp] at hid ⊢
      obtain ⟨v', hidentity⟩ := Leads.identity (op := 7#4) (v := 0#16) (id := none) (ftw := false) hu hl hid
      exact ⟨_, hidentity.trans (.courtesy (hu.along _) hc), rfl, passReport_identity rfl rfl, rfl⟩

/-- Settles O42: nothing in DETECT_IDENTITY before its closing select stops a failure. -/
theorem detectIdentityIsAtomic : Obligations.DetectIdentityIsAtomic := by
  refine ⟨fun hi f s rest answers rx ms => ⟨?short, ?decode⟩, ?beats⟩
  case short =>
    intro a addrs later haddrs hl hrx hshort hms h
    have hcount := length_le_of_identityAddrs haddrs
    have hstill := h.calm.still (encode (.detectIdentity hi f)) (detectIdentityActs s.params)
    rw [hrx] at hstill
    obtain ⟨r, hr, hrun⟩ := BusyRun.identityShort (s := s.accept (encode (.detectIdentity hi f)) (detectIdentityActs s.params))
      (rest := rest) (tx := s.tx) (pend := s.txPending) (now := s.now) (op := opField (encode (.detectIdentity hi f)))
      (v := 0#16) (ws := []) (id := none) (ftw := false) h.isOpen haddrs hl hstill hshort hms
    rw [← hrx] at hrun
    exact congrArg _ (State.request_fails_after h.idle h.calm hrun hr (by simp only [tickFuel]; omega))
  case decode =>
    intro hl hrx hrejected h
    have hid : identityOf s.params ([] ++ answers.map (·.value)) = none := identityOf_rejected hrejected
    have hstill := h.calm.still (encode (.detectIdentity hi f)) (detectIdentityActs s.params)
    rw [hrx] at hstill
    obtain ⟨v', hwords⟩ := BusyRun.readIdentity (s := s.accept (encode (.detectIdentity hi f)) (detectIdentityActs s.params))
      (rest := rest) (n := 0) (tx := s.tx) (pend := s.txPending) (now := s.now)
      (op := opField (encode (.detectIdentity hi f))) (v := 0#16) (ws := []) (id := none) (ftw := false) h.isOpen hl hstill
    have hrun := hwords.trans (.rejectIdentity hstill.tail rfl hid)
    rw [← hrx] at hrun
    exact congrArg _ (State.request_fails_after h.idle h.calm hrun rfl (by decide))
  case beats =>
    intro hi f s answers a addrs later r g haddrs hl hr hg
    have hlen := readWords_beats_length s.params.readPad (addrs.zip answers)
    have hzip : (addrs.zip answers).length ≤ addrs.length := by
      rw [List.length_zip]
      exact Nat.min_le_left _ _
    have hcount := length_le_of_identityAddrs haddrs
    have hread := Reading.tested_length s.params.readPad 0x01 a hr
    rw [Reading.tested, List.length_append] at hread
    refine State.completes_fail (Laws.requestWord_op hi f 7#4) rfl ?_ fun u hu hp hs => ?_
    · simp only [List.length_append, tickFuel]
      omega
    · rw [← hp]
      obtain ⟨r', hfalls, hu', hw⟩ := Falls.identity (op := 7#4) (v := 0#16) (id := none) (ftw := false) hu haddrs hl
        (by rwa [hs]) hg
      exact ⟨r', hfalls, hu', reportedFtWarn_of_not_ftw hw⟩

end Sys2Proof.Machine

/-! SUPPORT. The multi-step operations of one part, or two: what their calm runs and their runs beat by beat leave (R203 to
R217, R228). -/

namespace Sys2Proof.Machine

/-! ## Whole requests -/

/-- An operation with no value to report (R263). -/
def isPlain (op : BitVec 4) : Bool := !returnsBytes op && !returnsWord op && !returnsIdentity op

theorem passReport_of_isPlain {r : Run} (h : isPlain r.op = true) : passReport r = .passed := by
  simp only [isPlain, Bool.and_eq_true, Bool.not_eq_true'] at h
  exact passReport_plain h.1.1 h.1.2 h.2

/-- A request of an operation with no value, whose steps but the last lead, in a calm state, to its end. -/
theorem State.request_passes {s : State} {q : Word} {todo : List Act} {k n : Nat} {rest : List Draw} {rx₀ tx rx sent : List Byte}
    {now ms : Nat} {op : BitVec 4} (hready : s.Ready n rest) (hrx : s.rx = rx₀) (hq : opField q = op) (hop : isPlain op = true)
    (h : (s.accept q todo).Still rx₀.length → (s.accept q todo).stream.isOpen = true →
      ∃ v, BusyRun k ((s.accept q todo).mid rest n s.tx rx₀ s.txPending s.now ⟨op, todo, [], 0#16, [], none, false⟩)
        ((s.accept q todo).mid rest 1 tx rx 0 now ⟨op, [], [], v, [], none, false⟩))
    (hk : k < tickFuel) (htx : tx = s.tx ++ sent) (hnow : now = s.now + ms) (hlen : rx.length ≤ rx₀.length) :
    s.request q todo = (s.exchanged rest sent rx ms).reports q .passed false := by
  subst hrx htx hnow
  obtain ⟨v, hrun⟩ := h (hready.calm.still q todo) hready.isOpen
  rw [State.request_pass hready.idle hready.calm hq hrun hlen hk, passReport_of_isPlain hop, reportedFtWarn_of_not_ftw rfl]
  rfl

/-- A request whose steps lead, in a calm state, to a failure that nothing stops. -/
theorem State.request_falls {s : State} {q : Word} {todo : List Act} {k n : Nat} {ds rest : List Draw}
    {rx₀ tx rx sent : List Byte} {now ms : Nat} {op : BitVec 4} {f : Failure} (hready : s.Ready n ds) (hrx : s.rx = rx₀)
    (hq : opField q = op)
    (h : (s.accept q todo).Still rx₀.length → (s.accept q todo).stream.isOpen = true →
      ∃ r, r.ftw = false ∧ BusyRun k
        ((s.accept q todo).mid ds n s.tx rx₀ s.txPending s.now ⟨op, todo, [], 0#16, [], none, false⟩)
        (((s.accept q todo).mid rest 0 tx rx 0 now r).completeFail r f))
    (hk : k ≤ tickFuel) (htx : tx = s.tx ++ sent) (hnow : now = s.now + ms) :
    s.request q todo = (s.exchanged rest sent rx ms).reports q (failReport f) false := by
  subst hrx hq htx hnow
  obtain ⟨r, hr, hrun⟩ := h (hready.calm.still q todo) hready.isOpen
  exact State.request_fails_after hready.idle hready.calm hrun hr hk

/-- A request of an operation with no value, whose beats lead to its end or to a failure that nothing stops. -/
theorem State.completes_outcome {s : State} {i : Instr} {beats : List Beat} {todo : List Act} {op : BitVec 4}
    {failure : Option Failure} (hq : opField (encode i) = op) (hop : isPlain op = true)
    (hx : exec i s = .next (s.request (encode i) todo)) (hl : beats.length + 1 ≤ tickFuel)
    (hpass : failure = none → ∀ u : State, u.Alone → u.params = s.params → u.stream = s.stream →
      ∃ v, Leads u beats ⟨op, todo, [], 0#16, [], none, false⟩ ⟨op, [], [], v, [], none, false⟩)
    (hfail : ∀ f, failure = some f → ∀ u : State, u.Alone → u.params = s.params → u.stream = s.stream →
      ∃ r, Falls u beats ⟨op, todo, [], 0#16, [], none, false⟩ r f ∧ unwind r.todo = none ∧ r.ftw = false) :
    s.Completes i beats (outcomeReport failure) false := by
  cases failure with
  | none =>
    refine State.completes_pass hq hx hl rfl fun u hu hp hs => ?_
    obtain ⟨v, hlead⟩ := hpass rfl u hu hp hs
    exact ⟨_, hlead, rfl, passReport_of_isPlain hop, reportedFtWarn_of_not_ftw rfl⟩
  | some f =>
    refine State.completes_fail hq hx (Nat.le_of_succ_le hl) fun u hu hp hs => ?_
    obtain ⟨r, hfall, hunwind, hftw⟩ := hfail f rfl u hu hp hs
    exact ⟨r, hfall, hunwind, reportedFtWarn_of_not_ftw hftw⟩

/-! ## setUartAutoStart -/

/-- setUartAutoStart (R203): 26 steps. -/
theorem BusyRun.setUartAutoStart {s : State} {rest : List Draw} {n : Nat} {tx rx : List Byte} {pend now : Nat}
    {op : BitVec 4} {todo : List Act} {buf : List Byte} {v : Half} {ws : List Half} {id : Option Identity} {ftw : Bool}
    (h : s.Still rx.length) (ho : s.stream.isOpen = true) :
    BusyRun 26 (s.mid rest (n + 26) tx rx pend now ⟨op, setUartAutoStartActs ++ todo, buf, v, ws, id, ftw⟩)
      (s.mid rest n (tx ++ [0xFF, 0xFF, 0x0D, 0xFF, 0xFF, 0x0D, 0xFF, 0xFF, 0x0D, 0xFE, 0x01, 0x0D, 0x88, 0x03, 0x0D]) rx 0
        (now + 100) ⟨op, todo, buf, v, ws, id, ftw⟩) := by
  have hrun := ((BusyRun.resetSpell (rest := rest) (n := n + 11) (tx := tx) (pend := pend) (now := now) (op := op)
    (todo := .sleep tSettle :: (writeWinActs 1#1 uartCtrl uartAutoOn ++ todo)) (buf := buf) (v := v) (ws := ws) (id := id)
    (ftw := ftw) h ho).trans (.sleep (n := n + 10) h tSettle)).trans (.writeWin (n := n) h ho 1#1 uartCtrl uartAutoOn)
  simp only [List.append_assoc] at hrun
  exact hrun

/-- Settles O45. -/
theorem setUartAutoStartResult : Obligations.SetUartAutoStartResult := by
  refine ⟨fun hi f s rest h => ?calm, fun hi f s run hrun => ?beats⟩
  case calm =>
    exact congrArg _ (State.request_passes (todo := setUartAutoStartActs) h rfl (Laws.requestWord_op hi f 8#4) rfl
      (fun hstill ho => ⟨_, BusyRun.setUartAutoStart (todo := []) hstill ho⟩) (by decide) rfl rfl (Nat.le_refl _))
  case beats =>
    have hlen := run.beats_length hrun
    refine State.completes_outcome (todo := setUartAutoStartActs) (Laws.requestWord_op hi f 8#4) rfl rfl
      (by simp only [tickFuel]; omega) (fun hnone u hu _ _ => ?_) fun g hg u hu _ _ =>
        ⟨_, Falls.arm (todo := []) hu hrun hg, rfl, rfl⟩
    cases run with
    | armed => exact ⟨_, Leads.arm (todo := []) hu⟩
    | spellFails j k => nomatch hnone
    | commandFails place => nomatch hnone

/-! ## Polls and verifies that fail -/

section
variable {s : State} {rest : List Draw} {n : Nat} {tx rx : List Byte} {pend now : Nat}
  {op : BitVec 4} {todo : List Act} {buf : List Byte} {v : Half} {ws : List Half} {id : Option Identity} {ftw : Bool}

/-- The bytes of the attempts of a poll in window 1 are those of its register reads. -/
theorem pollBytes_eq (s : State) {p : Poll} (hw : p.window = 1#1) (k : Nat) :
    pollBytes s p k = (List.replicate k (s.readBytes 0x01 p.addr)).flatten := by
  have hwindow : (1#1).zeroExtend 8 = (0x01 : Byte) := by decide
  rw [pollBytes, hw, State.readBytes_eq, hwindow]

/-- A poll none of whose answers satisfies it, up to the check that finds the bound reached (R201). -/
theorem BusyRun.pollExpires (ho : s.stream.isOpen = true) (p : Poll) (answers : List Answer)
    (h : s.Still (answers.flatMap Answer.bytes ++ rx).length) (ha : ∀ a ∈ answers, a.value &&& p.mask ≠ 0#16)
    (hbefore : answers ≠ [] → p.interval * (answers.length - 1) < p.bound)
    (hreached : p.bound ≤ p.interval * answers.length) :
    ∃ v', BusyRun (18 * answers.length + 2)
      (s.mid rest (n + (18 * answers.length + 2)) tx (answers.flatMap Answer.bytes ++ rx) pend now
        ⟨op, .pollStart p :: todo, [], v, ws, id, ftw⟩)
      ((s.mid rest n (tx ++ pollBytes s p answers.length) rx (if answers = [] then pend else 0)
        (now + p.interval * answers.length) ⟨op, todo, [], v', ws, id, ftw⟩).failWith ⟨op, todo, [], v', ws, id, ftw⟩
          .pollExpired) := by
  have hstart : BusyRun 1 (s.mid rest (n + 1 + 18 * answers.length + 1) tx (answers.flatMap Answer.bytes ++ rx) pend now
      ⟨op, .pollStart p :: todo, [], v, ws, id, ftw⟩)
      (s.mid rest (n + 1 + 18 * answers.length) tx (answers.flatMap Answer.bytes ++ rx) pend now
        ⟨op, .pollCheck p now :: todo, [], v, ws, id, ftw⟩) := .act h rfl
  obtain ⟨v', hattempts⟩ := BusyRun.attempts (rest := rest) (n := n + 1) (tx := tx) (pend := pend) (now := now) (op := op)
    (todo := todo) (v := v) (ws := ws) (id := id) (ftw := ftw) (rx := rx) ho p (start := now) answers h (Nat.le_refl _)
    (fun hne => by have hlast := hbefore hne; omega) ha
  have hcheck : BusyRun 1 (s.mid rest (n + 1) (tx ++ pollBytes s p answers.length) rx (if answers = [] then pend else 0)
      (now + p.interval * answers.length) ⟨op, .pollCheck p now :: todo, [], v', ws, id, ftw⟩)
      ((s.mid rest n (tx ++ pollBytes s p answers.length) rx (if answers = [] then pend else 0)
        (now + p.interval * answers.length) ⟨op, todo, [], v', ws, id, ftw⟩).failWith ⟨op, todo, [], v', ws, id, ftw⟩
          .pollExpired) := by
    refine .act h.tail ?_
    have hbound : p.bound ≤ now + p.interval * answers.length - now := by omega
    exact if_pos hbound
  have hrun := (hstart.trans hattempts).trans hcheck
  rw [show 1 + 18 * answers.length + 1 = 18 * answers.length + 2 by omega,
    show n + 1 + 18 * answers.length + 1 = n + (18 * answers.length + 2) by omega] at hrun
  exact ⟨v', hrun⟩

/-- A verify that finds its flag set, with nothing after it that stops the failure (R206, R210). -/
theorem BusyRun.verifyFails (h : s.Still rx.length) (hu : unwind todo = none) {mask : Half} (hv : v &&& mask ≠ 0#16) :
    BusyRun 1 (s.mid rest (n + 1) tx rx pend now ⟨op, .verifyClear mask :: todo, buf, v, ws, id, ftw⟩)
      ((s.mid rest n tx rx pend now ⟨op, todo, buf, v, ws, id, ftw⟩).completeFail ⟨op, todo, buf, v, ws, id, ftw⟩
        .verifyFlagSet) :=
  .act h (by
    simp only [State.act]
    exact (if_neg hv).trans (State.failWith_of_unwind_none (r := ⟨op, todo, buf, v, ws, id, ftw⟩) hu _ _))

/-- flashBackup up to its verify, its poll ready at the first attempt (R206): 43 steps. -/
theorem BusyRun.flashBackupVerify (ho : s.stream.isOpen = true) {g d : Answer}
    (h : s.Still (g.bytes ++ (d.bytes ++ rx)).length) (hg : g.value &&& backupRunning = 0#16) :
    BusyRun 43
      (s.mid rest (n + 43) tx (g.bytes ++ (d.bytes ++ rx)) pend now
        ⟨op, flashBackupActs s.params ++ todo, [], v, ws, id, ftw⟩)
      (s.mid rest n (tx ++ ([0xFE, 0x01, 0x0D, 0x8A, 0x08, 0x0D] ++ s.readBytes 0x01 0x0A ++ s.readBytes 0x00 0x04)) rx
        0 now ⟨op, .verifyClear flashBuErr :: todo, [], d.value, ws, id, ftw⟩) := by
  have hrun := ((BusyRun.writeWin (rest := rest) (n := n + 33) (tx := tx) (pend := pend) (now := now) (op := op) (buf := [])
    (todo := .pollStart backupPoll :: (readRegisterActs s.params diagStat1 0#1 ++ (.verifyClear flashBuErr :: todo)))
    (v := v) (ws := ws) (id := id) (ftw := ftw) h ho 1#1 globCmdWrite flashBackupValue).trans
    (.pollReady (n := n + 15) ho h backupPoll (by decide) hg)).trans (.readRegister (n := n) ho h.tail diagStat1 0#1)
  simp only [List.append_assoc] at hrun ⊢
  exact hrun

end

/-! ## flashBackup -/

theorem backupRunning_eq : backupRunning = BitVec.twoPow 16 3 := by decide
theorem testRunning_eq : testRunning = BitVec.twoPow 16 10 := by decide
theorem flashBuErr_eq : flashBuErr = BitVec.twoPow 16 0 := by decide
theorem flashErr_eq : flashErr = BitVec.twoPow 16 2 := by decide

/-- Settles O46. -/
theorem flashBackupResult : Obligations.FlashBackupResult := by
  refine ⟨fun hi f s rest g d rx hrx hg => ⟨fun hd h => ?passes, fun hd h => ?fails⟩, fun hi f s run hrun => ?beats⟩
  case passes =>
    rw [List.append_assoc] at hrx
    exact congrArg _ (State.request_passes (todo := flashBackupActs s.params) h hrx (Laws.requestWord_op hi f 9#4) rfl
      (fun hstill ho => ⟨_, BusyRun.flashBackup (todo := []) ho hstill (maskClear backupRunning_eq hg)
        (maskClear flashBuErr_eq hd)⟩) (by decide) rfl rfl (by simp only [List.length_append]; omega))
  case fails =>
    rw [List.append_assoc] at hrx
    exact congrArg _ (State.request_falls (todo := flashBackupActs s.params) h hrx (Laws.requestWord_op hi f 9#4)
      (fun hstill ho => ⟨_, rfl, (BusyRun.flashBackupVerify (n := 1) (todo := []) ho hstill
        (maskClear backupRunning_eq hg)).trans (.verifyFails hstill.tail.tail rfl (maskSet flashBuErr_eq (by decide) hd))⟩)
      (by decide) rfl rfl)
  case beats =>
    have hlen := run.beats_length s.params.readPad hrun
    refine State.completes_outcome (todo := flashBackupActs s.params) (Laws.requestWord_op hi f 9#4) rfl rfl
      (by simp only [tickFuel]; omega) (fun hnone u hu hp hs => ?_) fun g hg u hu hp hs => ?_
    · exact Leads.flash (todo := []) hu hp.symm FlashJob.backup_fits (hs ▸ hrun) hnone
    · obtain ⟨v', hfalls⟩ := Falls.flash (op := 9#4) (todo := []) (v := 0#16) (ws := []) (id := none) (ftw := false) hu hp.symm
        FlashJob.backup_fits (hs ▸ hrun) hg
      exact ⟨_, hfalls, rfl, rfl⟩

end Sys2Proof.Machine

/-! SUPPORT. Polls that expire, the readiness waits, flashTest, softwareReset and configure (R208 to R217, R228). -/

namespace Sys2Proof.Machine

section
variable {s : State} {rest : List Draw} {n : Nat} {tx rx : List Byte} {pend now : Nat}
  {op : BitVec 4} {todo : List Act} {v : Half} {ws : List Half} {id : Option Identity} {ftw : Bool}

/-- flashBackup whose busy bit never clears: its poll expires after 50 attempts (R201, R208): 912 steps. -/
theorem BusyRun.flashBackupExpires (ho : s.stream.isOpen = true) (hu : unwind todo = none) {answers : List Answer}
    (h : s.Still (answers.flatMap Answer.bytes ++ rx).length) (hl : answers.length = 50)
    (ha : ∀ a ∈ answers, a.value.getLsbD 3 = true) :
    ∃ r, r.ftw = ftw ∧ BusyRun 912
      (s.mid rest (n + 912) tx (answers.flatMap Answer.bytes ++ rx) pend now
        ⟨op, flashBackupActs s.params ++ todo, [], v, ws, id, ftw⟩)
      ((s.mid rest n (tx ++ ([0xFE, 0x01, 0x0D, 0x8A, 0x08, 0x0D] ++ (List.replicate 50 (s.readBytes 0x01 0x0A)).flatten)) rx
        0 (now + 5000) r).completeFail r .pollExpired) := by
  have hne : answers ≠ [] := List.ne_nil_of_length_eq_add_one hl
  obtain ⟨v', hpoll⟩ := BusyRun.pollExpires (rest := rest) (n := n)
    (tx := tx ++ (selectCommand 1#1).bytes ++ [globCmdWrite, flashBackupValue, 0x0D]) (pend := 0)
    (now := now) (op := op) (todo := readRegisterActs s.params diagStat1 0#1 ++ (.verifyClear flashBuErr :: todo)) (v := v)
    (ws := ws) (id := id) (ftw := ftw) ho backupPoll answers h
    (fun a hmem => maskSet backupRunning_eq (by decide) (ha a hmem)) (fun _ => by rw [hl]; decide) (by rw [hl]; decide)
  rw [State.failWith_of_unwind_none hu, pollBytes_eq _ rfl, if_neg hne, hl] at hpoll
  have hrun := (BusyRun.writeWin (rest := rest) (n := n + 902) (tx := tx) (pend := pend) (buf := []) h ho 1#1 globCmdWrite
    flashBackupValue).trans hpoll
  rw [List.append_assoc, List.append_assoc] at hrun
  exact ⟨_, rfl, hrun⟩

/-- A failure inside a non-fatal part other than fullReset's flashTest ends that part only (R268). -/
theorem State.mid_failWith_leave {g : Guard} (hg : (g == .flashTest) = false) {buf : List Byte} {f : Failure} :
    (s.mid rest n tx rx pend now ⟨op, .leave g :: todo, buf, v, ws, id, ftw⟩).failWith
        ⟨op, .leave g :: todo, buf, v, ws, id, ftw⟩ f = s.mid rest n tx rx pend now ⟨op, todo, [], v, ws, id, ftw⟩ := by
  simp only [State.failWith, unwind, hg, Bool.or_false]
  rfl

/-- flashTest that passes although its readiness wait expires after 40 attempts (R210, R212): 767 steps. -/
theorem BusyRun.flashTestWaits (ho : s.stream.isOpen = true) {g d : Answer} {answers : List Answer}
    (h : s.Still (g.bytes ++ (d.bytes ++ (answers.flatMap Answer.bytes ++ rx))).length) (hg : g.value &&& testRunning = 0#16)
    (hd : d.value &&& flashErr = 0#16) (hl : answers.length = 40) (ha : ∀ a ∈ answers, a.value.getLsbD 10 = true) :
    ∃ v', BusyRun 767
      (s.mid rest (n + 767) tx (g.bytes ++ (d.bytes ++ (answers.flatMap Answer.bytes ++ rx))) pend now
        ⟨op, flashTestActs s.params ++ todo, [], v, ws, id, ftw⟩)
      (s.mid rest n (tx ++ ([0xFE, 0x01, 0x0D, 0x83, 0x08, 0x0D] ++ s.readBytes 0x01 0x02 ++ s.readBytes 0x00 0x04 ++
        (List.replicate 40 (s.readBytes 0x01 0x0A)).flatten)) rx 0 (now + 2000) ⟨op, todo, [], v', ws, id, ftw⟩) := by
  have hne : answers ≠ [] := List.ne_nil_of_length_eq_add_one hl
  have hwait : s.Still (answers.flatMap Answer.bytes ++ rx).length := h.tail.tail
  obtain ⟨v', hpoll⟩ := BusyRun.pollExpires (rest := rest) (n := n)
    (tx := tx ++ ([0xFE, 0x01, 0x0D, 0x83, 0x08, 0x0D] ++ s.readBytes 0x01 0x02 ++ s.readBytes 0x00 0x04)) (pend := 0)
    (now := now) (op := op) (todo := .leave .trailingWait :: todo) (v := d.value)
    (ws := ws) (id := id) (ftw := ftw) ho (readyPoll tReadyFt) answers hwait
    (fun a hmem => maskSet notReady_eq (by decide) (ha a hmem)) (fun _ => by rw [hl]; decide) (by rw [hl]; decide)
  rw [State.mid_failWith_leave rfl, pollBytes_eq _ rfl, if_neg hne, hl] at hpoll
  have hrun := (((BusyRun.flashTestVerify (n := n + 724) (pend := pend) (v := v) ho h hg).trans (.verifyClear hwait hd)).trans
    (.enter hwait .trailingWait)).trans hpoll
  rw [List.append_assoc] at hrun
  exact ⟨v', hrun⟩

end

/-- Settles O47. -/
theorem flashBackupNeverClears : Obligations.FlashBackupNeverClears := by
  intro hi f s rest answers rx hl ha hrx h
  exact congrArg _ (State.request_falls (f := .pollExpired) (todo := flashBackupActs s.params) h hrx
    (Laws.requestWord_op hi f 9#4)
    (fun hstill ho => BusyRun.flashBackupExpires (n := 0) (todo := []) ho rfl hstill hl ha) (by decide) rfl rfl)

/-- Settles O49. -/
theorem flashTestIgnoresTheTrailingWait : Obligations.FlashTestIgnoresTheTrailingWait := by
  intro hi f s rest g d answers rx hg hd hl ha hrx h
  rw [List.append_assoc] at hrx
  exact congrArg _ (State.request_passes (todo := flashTestActs s.params) h hrx (Laws.requestWord_op hi f 10#4) rfl
    (fun hstill ho => BusyRun.flashTestWaits (todo := []) ho hstill (maskClear testRunning_eq hg) (maskClear flashErr_eq hd)
      hl ha) (by decide) rfl rfl (by simp only [List.length_append]; omega))

/-- Settles O48. -/
theorem flashTestResult : Obligations.FlashTestResult := by
  refine ⟨fun hi f s rest g d w rx hg => ⟨fun hd hw hrx h => ?passes, fun hd hrx h => ?fails⟩, fun hi f s run hrun => ?beats⟩
  case passes =>
    simp only [List.append_assoc] at hrx
    exact congrArg _ (State.request_passes (todo := flashTestActs s.params) h hrx (Laws.requestWord_op hi f 10#4) rfl
      (fun hstill ho => ⟨_, BusyRun.flashTest (todo := []) ho hstill (maskClear testRunning_eq hg) (maskClear flashErr_eq hd)
        (maskClear notReady_eq hw)⟩) (by decide) rfl rfl (by simp only [List.length_append]; omega))
  case fails =>
    rw [List.append_assoc] at hrx
    exact congrArg _ (State.request_falls (todo := flashTestActs s.params) h hrx (Laws.requestWord_op hi f 10#4)
      (fun hstill ho => ⟨_, rfl, (BusyRun.flashTestVerify (n := 1) (todo := []) ho hstill
        (maskClear testRunning_eq hg)).trans (.verifyFails hstill.tail.tail rfl (maskSet flashErr_eq (by decide) hd))⟩)
      (by decide) rfl rfl)
  case beats =>
    have hlen := run.beats_length s.params.readPad hrun
    refine State.completes_outcome (todo := flashTestActs s.params) (Laws.requestWord_op hi f 10#4) rfl rfl
      (by simp only [tickFuel]; omega) (fun hnone u hu hp hs => ?_) fun g hg u hu hp hs => ?_
    · exact Leads.test (todo := []) hu hp.symm (hs ▸ hrun) hnone
    · obtain ⟨v', hfalls⟩ := Falls.test (op := 10#4) (todo := []) (v := 0#16) (ws := []) (id := none) (ftw := false) hu hp.symm
        (hs ▸ hrun) hg
      exact ⟨_, hfalls, rfl, rfl⟩

/-! ## waitUntilReady -/

/-- The word of WAIT_UNTIL_READY names its operation (R94). -/
theorem waitUntilReady_op (t : Half) (lo : Byte) (f : BitVec 1) : opField (encode (.waitUntilReady t lo f)) = 11#4 :=
  Laws.requestWord_op _ f 11#4

/-- Settles O50. -/
theorem waitUntilReadyBecomesReady : Obligations.WaitUntilReadyBecomesReady := by
  refine ⟨fun t lo f s rest answers a rx hset hclear hbound hrx h => ?calm, fun t lo f s early a hrun => ?beats⟩
  case calm =>
    have ht := t.isLt
    refine congrArg _ (State.request_passes (k := 18 * answers.length + 18) (rx₀ := answers.flatMap Answer.bytes ++ (a.bytes ++ rx))
      (todo := waitUntilReadyActs t.toNat) h hrx (waitUntilReady_op t lo f) rfl (fun hstill ho => ?_)
      (by simp only [tickFuel]; omega) rfl rfl (by simp only [List.length_append]; omega))
    have hpoll := BusyRun.pollReadyAfter (rest := rest) (n := 1) (tx := s.tx) (pend := s.txPending) (now := s.now) (op := 11#4)
      (todo := []) (v := 0#16) (ws := []) (id := none) (ftw := false) ho (readyPoll t.toNat) answers a hstill hbound
      (fun b hb => maskSet notReady_eq (by decide) (hset b hb)) (maskClear notReady_eq hclear)
    rw [pollBytes_eq _ rfl, Nat.add_comm 1] at hpoll
    exact ⟨_, hpoll⟩
  case beats =>
    have hlen := PollRun.beats_length s.params.readPad 0x0A hrun (by decide)
    have ht := t.isLt
    refine State.completes_outcome (failure := none) (todo := waitUntilReadyActs t.toNat) (waitUntilReady_op t lo f) rfl rfl
      (by simp only [tickFuel]; omega) (fun _ u hu hp hs => ?_) nofun
    exact hp ▸ Leads.wait (todo := []) hu rfl (hs ▸ hrun) rfl

end Sys2Proof.Machine

/-! SUPPORT. Readiness waits that expire, on an open and on a closed stream, softwareReset and configure (R214, R217,
R228). -/

namespace Sys2Proof.Machine

section
variable {s : State} {rest : List Draw} {n : Nat} {tx rx : List Byte} {pend now : Nat}
  {op : BitVec 4} {todo : List Act} {v : Half} {ws : List Half} {id : Option Identity} {ftw : Bool}

/-- An attempt of a poll whose first frame fails on a closed stream: the poll sleeps and checks its bound again (R141,
R202): 3 steps. -/
theorem BusyRun.attemptClosed (h : s.Still rx.length) (hclosed : s.stream.isOpen = false) (p : Poll) {start : Nat}
    (hbound : now - start < p.bound) :
    BusyRun 3 (s.mid rest (n + 3) tx rx pend now ⟨op, .pollCheck p start :: todo, [], v, ws, id, ftw⟩)
      (s.mid rest n tx rx pend (now + p.interval) ⟨op, .pollCheck p start :: todo, [], v, ws, id, ftw⟩) := by
  have hcheck : BusyRun 1 (s.mid rest (n + 3) tx rx pend now ⟨op, .pollCheck p start :: todo, [], v, ws, id, ftw⟩)
      (s.mid rest (n + 2) tx rx pend now ⟨op, attemptActs s.params p start ++ todo, [], v, ws, id, ftw⟩) :=
    .act h (if_neg (show ¬ p.bound ≤ now - start by omega))
  have hframe : BusyRun 1 (s.mid rest (n + 2) tx rx pend now ⟨op, attemptActs s.params p start ++ todo, [], v, ws, id, ftw⟩)
      (s.mid rest (n + 1) tx rx pend now ⟨op, .sleep p.interval :: .pollCheck p start :: todo, [], v, ws, id, ftw⟩) := by
    refine .act h ((State.act_frame_closed (s := s.mid _ _ _ _ _ _ _) hclosed _ _ _ _).trans ?_)
    simp only [State.failWith, List.append_eq, List.cons_append, List.nil_append, unwind, Bool.or_false]
    rfl
  exact (hcheck.trans hframe).trans (.sleep h _)

/-- Attempts of a poll on a closed stream. -/
theorem BusyRun.attemptsClosed (h : s.Still rx.length) (hclosed : s.stream.isOpen = false) (p : Poll) {start : Nat}
    (hs : start ≤ now) (k : Nat) (hb : k ≠ 0 → now - start + p.interval * (k - 1) < p.bound) :
    BusyRun (3 * k) (s.mid rest (n + 3 * k) tx rx pend now ⟨op, .pollCheck p start :: todo, [], v, ws, id, ftw⟩)
      (s.mid rest n tx rx pend (now + p.interval * k) ⟨op, .pollCheck p start :: todo, [], v, ws, id, ftw⟩) := by
  induction k generalizing now with
  | zero => exact .refl _
  | succ k ih =>
    have hlast := hb (Nat.succ_ne_zero k)
    rw [Nat.add_sub_cancel] at hlast
    have hfirst := BusyRun.attemptClosed (rest := rest) (n := n + 3 * k) (tx := tx) (pend := pend) (now := now) (op := op)
      (todo := todo) (v := v) (ws := ws) (id := id) (ftw := ftw) h hclosed p (start := start) (by omega)
    have hlater := ih (now := now + p.interval) (by omega) fun hk => by
      have hsplit : p.interval * k = p.interval + p.interval * (k - 1) := by
        obtain ⟨j, rfl⟩ := Nat.exists_eq_succ_of_ne_zero hk
        rw [Nat.succ_eq_add_one, Nat.add_sub_cancel, Nat.mul_add, Nat.mul_one, Nat.add_comm]
      omega
    have hrun := hfirst.trans hlater
    rw [Nat.add_assoc now, Nat.add_comm p.interval (p.interval * k), ← Nat.mul_add_one, show 3 + 3 * k = 3 * (k + 1) by omega] at hrun
    exact hrun

/-- A poll on a closed stream, up to the check that finds the bound reached (R201, R202). -/
theorem BusyRun.pollClosed (h : s.Still rx.length) (hclosed : s.stream.isOpen = false) (hu : unwind todo = none) (p : Poll)
    (k : Nat) (hbefore : k ≠ 0 → p.interval * (k - 1) < p.bound) (hreached : p.bound ≤ p.interval * k) :
    BusyRun (3 * k + 2) (s.mid rest (n + (3 * k + 2)) tx rx pend now ⟨op, .pollStart p :: todo, [], v, ws, id, ftw⟩)
      ((s.mid rest n tx rx pend (now + p.interval * k) ⟨op, todo, [], v, ws, id, ftw⟩).completeFail
        ⟨op, todo, [], v, ws, id, ftw⟩ .pollExpired) := by
  have hstart : BusyRun 1 (s.mid rest (n + 1 + 3 * k + 1) tx rx pend now ⟨op, .pollStart p :: todo, [], v, ws, id, ftw⟩)
      (s.mid rest (n + 1 + 3 * k) tx rx pend now ⟨op, .pollCheck p now :: todo, [], v, ws, id, ftw⟩) := .act h rfl
  have hattempts := BusyRun.attemptsClosed (rest := rest) (n := n + 1) (tx := tx) (pend := pend) (now := now) (op := op)
    (todo := todo) (v := v) (ws := ws) (id := id) (ftw := ftw) h hclosed p (Nat.le_refl now) k
    (fun hk => by have hlast := hbefore hk; omega)
  have hcheck : BusyRun 1 (s.mid rest (n + 1) tx rx pend (now + p.interval * k)
      ⟨op, .pollCheck p now :: todo, [], v, ws, id, ftw⟩)
      ((s.mid rest n tx rx pend (now + p.interval * k) ⟨op, todo, [], v, ws, id, ftw⟩).completeFail
        ⟨op, todo, [], v, ws, id, ftw⟩ .pollExpired) := by
    refine .act h ?_
    have hbound : p.bound ≤ now + p.interval * k - now := by omega
    exact (if_pos hbound).trans (State.failWith_of_unwind_none (r := ⟨op, todo, [], v, ws, id, ftw⟩) hu _ _)
  have hrun := (hstart.trans hattempts).trans hcheck
  rwa [show 1 + 3 * k + 1 = 3 * k + 2 by omega, show n + 1 + 3 * k + 1 = n + (3 * k + 2) by omega] at hrun

/-- softwareReset whose poll becomes ready after some attempts (R217). -/
theorem BusyRun.softwareResetAfter (ho : s.stream.isOpen = true) (answers : List Answer) (a : Answer)
    (h : s.Still (answers.flatMap Answer.bytes ++ (a.bytes ++ rx)).length) (hb : 50 * answers.length < 7000)
    (hset : ∀ b ∈ answers, b.value.getLsbD 10 = true) (hclear : a.value.getLsbD 10 = false) :
    BusyRun (18 * answers.length + 28)
      (s.mid rest (n + (18 * answers.length + 28)) tx (answers.flatMap Answer.bytes ++ (a.bytes ++ rx)) pend now
        ⟨op, softwareResetActs ++ todo, [], v, ws, id, ftw⟩)
      (s.mid rest n (tx ++ ([0xFE, 0x01, 0x0D, 0x8A, 0x80, 0x0D] ++
        (List.replicate (answers.length + 1) (s.readBytes 0x01 0x0A)).flatten)) rx 0 (now + 50 * answers.length)
        ⟨op, todo, [], a.value, ws, id, ftw⟩) := by
  have hpoll := BusyRun.pollReadyAfter (rest := rest) (n := n)
    (tx := tx ++ (selectCommand 1#1).bytes ++ [globCmdWrite, swResetValue, 0x0D]) (pend := 0) (now := now) (op := op)
    (todo := todo) (v := v) (ws := ws) (id := id) (ftw := ftw) ho (readyPoll tReadySwrst) answers a h hb
    (fun b hmem => maskSet notReady_eq (by decide) (hset b hmem)) (maskClear notReady_eq hclear)
  rw [pollBytes_eq _ rfl] at hpoll
  have hrun := (BusyRun.writeWin (pend := pend) h ho 1#1 globCmdWrite swResetValue).trans hpoll
  rw [List.append_assoc, List.append_assoc, show 10 + (18 * answers.length + 18) = 18 * answers.length + 28 by omega] at hrun
  exact hrun

end

/-! ## waitUntilReady -/

/-- The attempts that a bound of `t` allows: the last begins before it, and the sleep after the last reaches it (R201). -/
theorem readyAttempts (t : Nat) : ((t + 49) / 50 ≠ 0 → 50 * ((t + 49) / 50 - 1) < t) ∧ t ≤ 50 * ((t + 49) / 50) := by
  omega

/-- Settles O51. -/
theorem waitUntilReadyExpires : Obligations.WaitUntilReadyExpires := by
  refine ⟨fun t lo f s rest answers rx hset hl hrx h => ?calm, fun t lo f s early hrun => ?beats⟩
  case calm =>
    have ht := t.isLt
    obtain ⟨hbefore, hreached⟩ := readyAttempts t.toNat
    rw [← hl] at hbefore hreached
    have hstill := h.calm.still (encode (.waitUntilReady t lo f)) (waitUntilReadyActs t.toNat)
    rw [hrx] at hstill
    obtain ⟨v', hpoll⟩ := BusyRun.pollExpires
      (s := s.accept (encode (.waitUntilReady t lo f)) (waitUntilReadyActs t.toNat)) (rest := rest) (n := 0) (tx := s.tx)
      (pend := s.txPending) (now := s.now) (op := opField (encode (.waitUntilReady t lo f))) (todo := []) (v := 0#16) (ws := [])
      (id := none) (ftw := false) h.isOpen (readyPoll t.toNat) answers hstill
      (fun b hb => maskSet notReady_eq (by decide) (hset b hb))
      (fun hne => hbefore (mt List.length_eq_zero_iff.mp hne)) hreached
    rw [State.failWith_of_unwind_none rfl, pollBytes_eq _ rfl, Nat.zero_add, ← hrx] at hpoll
    refine congrArg _ ((State.request_fails_after h.idle h.calm hpoll rfl (by simp only [tickFuel]; omega)).trans ?_)
    simp only [List.length_eq_zero_iff]
    rfl
  case beats =>
    have hlen := PollRun.beats_length s.params.readPad 0x0A hrun (by decide)
    have ht := t.isLt
    refine State.completes_outcome (failure := some .pollExpired) (todo := waitUntilReadyActs t.toNat)
      (waitUntilReady_op t lo f) rfl rfl (by simp only [tickFuel]; omega) nofun fun g hg u hu hp hs => ?_
    cases hg
    obtain ⟨v', hfalls⟩ := Falls.wait (op := 11#4) (todo := []) (v := 0#16) (ws := []) (id := none) (ftw := false) hu hp.symm
      (hs ▸ hrun) rfl
    exact ⟨_, hfalls, rfl, rfl⟩

/-- Settles O52. -/
theorem waitUntilReadyOnAClosedStream : Obligations.WaitUntilReadyOnAClosedStream := by
  intro t lo f s rest hs hclosed hc
  have ht := t.isLt
  obtain ⟨hbefore, hreached⟩ := readyAttempts t.toNat
  have hpoll := BusyRun.pollClosed (s := s.accept (encode (.waitUntilReady t lo f)) (waitUntilReadyActs t.toNat))
    (rest := rest) (n := 0) (tx := s.tx) (pend := s.txPending) (now := s.now)
    (op := opField (encode (.waitUntilReady t lo f))) (todo := []) (v := 0#16) (ws := []) (id := none) (ftw := false)
    (hc.still _ _) hclosed rfl (readyPoll t.toNat) ((t.toNat + 49) / 50) hbefore hreached
  rw [Nat.zero_add] at hpoll
  exact congrArg _ (State.request_fails_after hs hc hpoll rfl (by simp only [tickFuel]; omega))

/-! ## softwareReset -/

/-- Settles O53. -/
theorem softwareResetResult : Obligations.SoftwareResetResult := by
  refine ⟨fun hi f s rest answers a rx hset hclear hcount hrx h => ?calm, fun hi f s run hrun => ?beats⟩
  case calm =>
    refine congrArg _ (State.request_passes (k := 18 * answers.length + 28)
      (rx₀ := answers.flatMap Answer.bytes ++ (a.bytes ++ rx)) (todo := softwareResetActs) h hrx
      (Laws.requestWord_op hi f 12#4) rfl (fun hstill ho => ?_) (by simp only [tickFuel]; omega) rfl rfl
      (by simp only [List.length_append]; omega))
    have hreset := BusyRun.softwareResetAfter (rest := rest) (n := 1) (tx := s.tx) (pend := s.txPending) (now := s.now)
      (op := 12#4) (todo := []) (v := 0#16) (ws := []) (id := none) (ftw := false) ho answers a hstill (by omega) hset hclear
    rw [Nat.add_comm 1] at hreset
    exact ⟨_, hreset⟩
  case beats =>
    have hlen := run.beats_length s.params.readPad hrun
    refine State.completes_outcome (todo := softwareResetActs) (Laws.requestWord_op hi f 12#4) rfl rfl
      (by simp only [tickFuel]; omega) (fun hnone u hu hp hs => ?_) fun g hg u hu hp hs => ?_
    · exact Leads.softwareReset (todo := []) hu hp.symm (hs ▸ hrun) hnone
    · obtain ⟨v', hfalls⟩ := Falls.softwareReset (op := 12#4) (todo := []) (v := 0#16) (ws := []) (id := none) (ftw := false) hu
        hp.symm (hs ▸ hrun) hg
      exact ⟨_, hfalls, rfl, rfl⟩

/-! ## configure -/

/-- Settles O59. -/
theorem configureResult : Obligations.ConfigureResult := by
  refine ⟨fun hi f s rest g d rx hrx hg => ⟨fun hd h => ?passes, fun hd h => ?fails⟩, fun hi f s run hrun => ?backup,
    fun hi f s arm g harm hg => ?arm⟩
  case passes =>
    rw [List.append_assoc] at hrx
    refine congrArg _ (State.request_passes (todo := configureActs s.params) h hrx (Laws.requestWord_op hi f 15#4) rfl
      (fun hstill ho => ⟨_, (BusyRun.setUartAutoStart (n := 45) hstill ho).trans
        (.flashBackup (todo := []) ho hstill (maskClear backupRunning_eq hg) (maskClear flashBuErr_eq hd))⟩) (by decide) ?_ rfl
      (by simp only [List.length_append]; omega))
    exact List.append_assoc ..
  case fails =>
    rw [List.append_assoc] at hrx
    refine congrArg _ (State.request_falls (todo := configureActs s.params) h hrx (Laws.requestWord_op hi f 15#4)
      (fun hstill ho => ⟨_, rfl, ((BusyRun.setUartAutoStart (n := 44) hstill ho).trans
        (.flashBackupVerify (n := 1) (todo := []) ho hstill (maskClear backupRunning_eq hg))).trans
          (.verifyFails hstill.tail.tail rfl (maskSet flashBuErr_eq (by decide) hd))⟩) (by decide) ?_ rfl)
    exact List.append_assoc ..
  case backup =>
    have hlen := run.beats_length s.params.readPad hrun
    have harmed := ArmRun.armed.beats_length trivial
    refine State.completes_outcome (todo := configureActs s.params) (Laws.requestWord_op hi f 15#4) rfl rfl
      (by simp only [List.length_append, tickFuel]; omega) (fun hnone u hu hp hs => ?_) fun g hg u hu hp hs => ?_
    · obtain ⟨v', hflash⟩ := Leads.flash (op := 15#4) (todo := []) (v := 0#16) (ws := []) (id := none) (ftw := false)
        (hu.along ArmRun.armed.beats) (p := s.params) (by rw [State.along_params, hp]) FlashJob.backup_fits (r := run)
        (by rw [State.along_stream, hs]; exact hrun) hnone
      exact ⟨v', (Leads.arm hu).trans hflash⟩
    · obtain ⟨v', hflash⟩ := Falls.flash (op := 15#4) (todo := []) (v := 0#16) (ws := []) (id := none) (ftw := false)
        (hu.along ArmRun.armed.beats) (p := s.params) (by rw [State.along_params, hp]) FlashJob.backup_fits (r := run)
        (by rw [State.along_stream, hs]; exact hrun) hg
      exact ⟨_, (Leads.arm hu).falls hflash, rfl, rfl⟩
  case arm =>
    have hlen := arm.beats_length harm
    exact State.completes_fail (op := 15#4) (todo := configureActs s.params) (Laws.requestWord_op hi f 15#4) rfl
      (by simp only [tickFuel]; omega) fun u hu _ _ =>
        ⟨_, Falls.arm (todo := flashBackupActs s.params) hu harm hg, rfl, rfl⟩

end Sys2Proof.Machine

/-! SUPPORT. exitAutoMode: its mode exit confirmed or not, its backup, its closing select (R219 to R221). -/

namespace Sys2Proof.Machine

/-! ## Positions -/

/-- exitAutoMode up to its confirmation, with the positions after it (R219). -/
def modeExitActs (p : Params) (todo : List Act) : List Act :=
  writeWinActs 0#1 modeMscWrite modeExitValue ++ (.sleep tModeExit :: (readUnselectedActs p modeMscRead ++ todo))

/-- exitAutoMode from its confirmation on (R219, R220). -/
def confirmedActs (p : Params) (persist : Bool) (todo : List Act) : List Act :=
  .confirmSet configMode :: (writeWinActs 1#1 uartCtrl 0x00 ++
    ((if persist then flashBackupActs p else []) ++ (.enter .courtesy :: todo)))

theorem exitAutoModeActs_append (p : Params) (persist : Bool) (todo : List Act) :
    exitAutoModeActs p persist ++ todo = modeExitActs p (confirmedActs p persist todo) := by
  simp only [exitAutoModeActs, modeExitActs, confirmedActs, List.append_assoc, List.cons_append, List.nil_append]

theorem exitAutoModeActs_eq (p : Params) (persist : Bool) :
    exitAutoModeActs p persist = modeExitActs p (confirmedActs p persist []) := by
  rw [← exitAutoModeActs_append, List.append_nil]

/-- FULL_RESET from its spell on (R224). -/
def rebootActs : List Act :=
  resetSpellActs ++ (.sleep tSettle :: .enter .flashTest :: (softwareResetActs ++ [.sleep tStabilize]))

/-- FULL_RESET with persist is exitAutoMode with its backup, then the reboot (R224). -/
theorem fullResetActs_persist (p : Params) : fullResetActs p true = modeExitActs p (confirmedActs p true rebootActs) := by
  rw [← exitAutoModeActs_append]
  simp only [fullResetActs, rebootActs, if_true, List.append_assoc, List.cons_append, List.nil_append]

/-- Nothing after the confirmation of exitAutoMode stops a failure, where nothing after exitAutoMode does. -/
theorem unwind_confirmedActs (p : Params) (persist : Bool) {todo : List Act} (h : unwind todo = none) :
    unwind (confirmedActs p persist todo) = none := by
  cases persist <;> exact h

/-! ## The mode exit, not confirmed -/

section
variable {s : State} {rest : List Draw} {n : Nat} {tx rx : List Byte} {pend now : Nat}
  {op : BitVec 4} {todo : List Act} {buf : List Byte} {v : Half} {ws : List Half} {id : Option Identity} {ftw : Bool}

/-- A confirmation that finds its bit clear, with nothing after it that stops the failure (R219). -/
theorem BusyRun.confirmFails (h : s.Still rx.length) (hu : unwind todo = none) {mask : Half} (hv : v &&& mask = 0#16) :
    BusyRun 1 (s.mid rest (n + 1) tx rx pend now ⟨op, .confirmSet mask :: todo, buf, v, ws, id, ftw⟩)
      ((s.mid rest n tx rx pend now ⟨op, todo, buf, v, ws, id, ftw⟩).completeFail ⟨op, todo, buf, v, ws, id, ftw⟩
        .notConfirmed) :=
  .act h (by
    simp only [State.act]
    exact (if_pos hv).trans (State.failWith_of_unwind_none (r := ⟨op, todo, buf, v, ws, id, ftw⟩) hu _ _))

/-- exitAutoMode whose MODE_CTRL read stays short for the timeout (R138, R219). -/
theorem BusyRun.modeExitShort (ho : s.stream.isOpen = true) (hu : unwind todo = none) {part : List Byte}
    (h : s.Still part.length) (hl : part.length < 4) {ms : Nat} (hms : s.stream.timeout.toNat ≤ ms) :
    ∃ r, r.ftw = ftw ∧ BusyRun (part.length + 17)
      (s.mid (Draw.after ms :: rest) (part.length + 16) tx part pend now
        ⟨op, modeExitActs s.params todo, buf, v, ws, id, ftw⟩)
      ((s.mid rest 0 (tx ++ [0xFE, 0x00, 0x0D, 0x83, 0x02, 0x0D, 0x02, s.params.readPad, 0x0D]) [] 0 (now + 50 + ms)
        r).completeFail r (.transport .timeout (some 0x02))) := by
  have hread := BusyRun.exchangeShort (rest := rest)
    (tx := tx ++ (selectCommand 0#1).bytes ++ [modeMscWrite, modeExitValue, 0x0D]) (pend := 0) (now := now + tModeExit)
    (op := op) (todo := .parse modeMscRead :: todo) (buf := buf) (v := v) (ws := ws) (id := id) (ftw := ftw) ho hu
    (c := readCommand s.params modeMscRead) h hl hms modeMscRead
  have hrun := ((BusyRun.writeWin (pend := pend) h ho 0#1 modeMscWrite modeExitValue).trans (.sleep h tModeExit)).trans hread
  rw [List.append_assoc, List.append_assoc, show 10 + 1 + (part.length + 6) = part.length + 17 by omega] at hrun
  exact ⟨_, rfl, hrun⟩

/-- exitAutoMode whose mode-exit write the platform fails (R136, R219). -/
theorem Falls.modeExitWrite (h : s.Alone) (p : Params) {place : Bool × Nat} (hk : place.2 ≤ 3) :
    Falls s (writeBeats 0x00 0x83 0x02 (some place)) ⟨op, modeExitActs p todo, [], v, ws, id, ftw⟩
      ⟨op, todo, [], v, ws, id, ftw⟩ (writeFailure 0x83 place) := by
  obtain ⟨second, k⟩ := place
  cases second with
  | false => exact (Falls.frame h (selectCommand 0#1) 0xFE hk).pass _ rfl rfl
  | true =>
    exact ((Leads.frame h (c := selectCommand 0#1) rfl 0xFE).falls (.frame (h.along _) ⟨0x00, 0x83, 0x02⟩ 0x83 hk)).pass _
      rfl rfl

/-- The mode-exit write and the sleep after it (R219). -/
theorem Leads.modeExitWrite (h : s.Alone) (p : Params) :
    Leads s (writeBeats 0x00 0x83 0x02 none ++ [.sleep 50]) ⟨op, modeExitActs p todo, [], v, ws, id, ftw⟩
      ⟨op, readUnselectedActs p modeMscRead ++ todo, [], v, ws, id, ftw⟩ :=
  ((Leads.frame h (c := selectCommand 0#1) rfl 0xFE).trans (.frame (h.along _) (c := ⟨0x00, 0x83, 0x02⟩) rfl 0x83)).trans
    (.sleep (h.along _) tModeExit)

/-- exitAutoMode whose read frame the platform fails (R136, R219). -/
theorem Falls.modeExitRead (h : s.Alone) (p : Params) {k : Nat} (hk : k ≤ 3) :
    Falls s (writeBeats 0x00 0x83 0x02 none ++ [.sleep 50] ++ frameFailsBeats 0x02 p.readPad k)
      ⟨op, modeExitActs p todo, [], v, ws, id, ftw⟩ ⟨op, todo, [], v, ws, id, ftw⟩ (.transport .io (some 0x02)) :=
  ((Leads.modeExitWrite h p).falls (.frame (h.along _) (readCommand p modeMscRead) modeMscRead hk)).pass _ rfl rfl

end

theorem configMode_eq : configMode = BitVec.twoPow 16 10 := by decide

/-- EXIT_AUTO_MODE is the request for its positions, told by its mode exit (R219). -/
theorem exec_exitAutoMode (hi : BitVec 24) (persist : BitVec 1) (s : State) :
    exec (.exitAutoMode hi persist) s = .next (s.request (encode (.exitAutoMode hi persist))
      (modeExitActs s.params (confirmedActs s.params (persist == 1#1) []))) :=
  congrArg Host.Outcome.next (congrArg (s.request _) (exitAutoModeActs_eq s.params _))

/-- FULL_RESET with persist, told by its mode exit (R224). -/
theorem exec_fullReset_persist (hi : BitVec 24) (s : State) :
    exec (.fullReset hi 1#1) s = .next (s.request (encode (.fullReset hi 1#1))
      (modeExitActs s.params (confirmedActs s.params true rebootActs))) :=
  congrArg Host.Outcome.next (congrArg (s.request _) (fullResetActs_persist s.params))

/-- EXIT_AUTO_MODE and FULL_RESET with persist begin with the mode exit, and nothing after it stops a failure. -/
theorem exec_modeExit {i : Instr} (h : (∃ hi persist, i = .exitAutoMode hi persist) ∨ ∃ hi, i = .fullReset hi 1#1) (s : State) :
    ∃ todo, exec i s = .next (s.request (encode i) (modeExitActs s.params (.confirmSet configMode :: todo))) ∧
      unwind todo = none := by
  rcases h with ⟨hi, persist, rfl⟩ | ⟨hi, rfl⟩
  · exact ⟨_, exec_exitAutoMode hi persist s, unwind_confirmedActs s.params _ rfl⟩
  · exact ⟨_, exec_fullReset_persist hi s, unwind_confirmedActs s.params true rfl⟩

/-- Settles O55. -/
theorem modeExitNotConfirmed : Obligations.ModeExitNotConfirmed := by
  intro i s rest hi
  obtain ⟨todo, hexec, hu⟩ := exec_modeExit hi s
  refine ⟨fun m rx hm hrx h => ?notConfirmed, fun ms hl hms h => ?short, fun place hk => ?writeFails, fun k hk => ?readFails⟩
  case notConfirmed =>
    exact hexec.trans (congrArg _ (State.request_falls (f := .notConfirmed) h hrx rfl (fun hstill ho => ⟨_, rfl,
      (BusyRun.modeExit (n := 1) ho hstill rfl).trans (.confirmFails hstill.tail hu (maskClear configMode_eq hm))⟩)
      (by decide) rfl rfl))
  case short =>
    exact hexec.trans (congrArg _ (State.request_falls (f := .transport .timeout (some 0x02)) h rfl rfl
      (fun hstill ho => BusyRun.modeExitShort (todo := .confirmSet configMode :: todo) ho hu hstill hl hms)
      (by simp only [tickFuel]; omega) rfl (Nat.add_assoc ..)))
  case writeFails =>
    have hlen := writeBeats_length 0x00 0x83 0x02 (some place)
    exact State.completes_fail rfl hexec (by simp only [tickFuel]; omega) fun u hu' _ _ =>
      ⟨_, Falls.modeExitWrite hu' s.params hk, hu, reportedFtWarn_of_not_ftw rfl⟩
  case readFails =>
    have hlen := writeBeats_length 0x00 0x83 0x02 none
    refine State.completes_fail (f := .transport .io (some 0x02)) rfl hexec ?_ fun u hu' _ _ =>
      ⟨_, Falls.modeExitRead hu' s.params hk, hu, reportedFtWarn_of_not_ftw rfl⟩
    simp only [frameFailsBeats, List.length_append, List.length_cons, List.length_map, List.length_take, List.length_nil,
      tickFuel]
    omega

/-! ## exitAutoMode, confirmed -/

section
variable {s : State} {rest : List Draw} {n : Nat} {tx rx : List Byte} {pend now : Nat}
  {op : BitVec 4} {todo : List Act} {buf : List Byte} {v : Half} {ws : List Half} {id : Option Identity} {ftw : Bool}

/-- exitAutoMode, confirmed, up to its backup (R219): 32 steps. -/
theorem BusyRun.modeExitCleared (ho : s.stream.isOpen = true) {m : Answer} (h : s.Still (m.bytes ++ rx).length)
    (hm : m.value.getLsbD 10 = true) :
    BusyRun 32
      (s.mid rest (n + 32) tx (m.bytes ++ rx) pend now
        ⟨op, modeExitActs s.params (.confirmSet configMode :: (writeWinActs 1#1 uartCtrl 0x00 ++ todo)), [], v, ws, id, ftw⟩)
      (s.mid rest n (tx ++ [0xFE, 0x00, 0x0D, 0x83, 0x02, 0x0D, 0x02, s.params.readPad, 0x0D, 0xFE, 0x01, 0x0D, 0x88, 0x00,
        0x0D]) rx 0 (now + 50) ⟨op, todo, [], m.value, ws, id, ftw⟩) := by
  have hrun := ((BusyRun.modeExit (rest := rest) (n := n + 11) (tx := tx) (pend := pend) (now := now) (op := op)
    (todo := .confirmSet configMode :: (writeWinActs 1#1 uartCtrl 0x00 ++ todo)) (v := v) (ws := ws) (id := id) (ftw := ftw)
    ho h rfl).trans (.confirmSet (n := n + 10) h.tail (maskSet configMode_eq (by decide) hm))).trans
    (.writeWin (n := n) h.tail ho 1#1 uartCtrl 0x00)
  rw [List.append_assoc, List.append_assoc] at hrun
  exact hrun

/-- exitAutoMode without persist, confirmed (R219): 39 steps. -/
theorem BusyRun.exitAutoMode (ho : s.stream.isOpen = true) {m : Answer} (h : s.Still (m.bytes ++ rx).length)
    (hm : m.value.getLsbD 10 = true) :
    BusyRun 39
      (s.mid rest (n + 39) tx (m.bytes ++ rx) pend now
        ⟨op, modeExitActs s.params (confirmedActs s.params false todo), [], v, ws, id, ftw⟩)
      (s.mid rest n (tx ++ ([0xFE, 0x00, 0x0D, 0x83, 0x02, 0x0D, 0x02, s.params.readPad, 0x0D, 0xFE, 0x01, 0x0D, 0x88, 0x00,
        0x0D] ++ [0xFE, 0x00, 0x0D])) rx 0 (now + 50) ⟨op, todo, [], m.value, ws, id, ftw⟩) := by
  have hrun := (BusyRun.modeExitCleared (rest := rest) (n := n + 7) (tx := tx) (pend := pend) (now := now) (op := op)
    (todo := .enter .courtesy :: todo) (v := v) (ws := ws) (id := id) (ftw := ftw) ho h hm).trans (.courtesy h.tail ho)
  rw [List.append_assoc] at hrun
  exact hrun

/-- exitAutoMode with its backup, confirmed and verified (R219, R220): 83 steps. -/
theorem BusyRun.exitAutoModePersist (ho : s.stream.isOpen = true) {m g d : Answer}
    (h : s.Still (m.bytes ++ (g.bytes ++ (d.bytes ++ rx))).length) (hm : m.value.getLsbD 10 = true)
    (hg : g.value.getLsbD 3 = false) (hd : d.value.getLsbD 0 = false) :
    BusyRun 83
      (s.mid rest (n + 83) tx (m.bytes ++ (g.bytes ++ (d.bytes ++ rx))) pend now
        ⟨op, modeExitActs s.params (confirmedActs s.params true todo), [], v, ws, id, ftw⟩)
      (s.mid rest n (tx ++ ([0xFE, 0x00, 0x0D, 0x83, 0x02, 0x0D, 0x02, s.params.readPad, 0x0D, 0xFE, 0x01, 0x0D, 0x88, 0x00,
        0x0D] ++ [0xFE, 0x01, 0x0D, 0x8A, 0x08, 0x0D] ++ s.readBytes 0x01 0x0A ++ s.readBytes 0x00 0x04 ++
        [0xFE, 0x00, 0x0D])) rx 0 (now + 50) ⟨op, todo, [], d.value, ws, id, ftw⟩) := by
  have hrun := ((BusyRun.modeExitCleared (rest := rest) (n := n + 51) (tx := tx) (pend := pend) (now := now) (op := op)
    (todo := flashBackupActs s.params ++ (.enter .courtesy :: todo)) (v := v) (ws := ws) (id := id) (ftw := ftw) ho h
    hm).trans (.flashBackup (n := n + 7) ho h.tail (maskClear backupRunning_eq hg) (maskClear flashBuErr_eq hd))).trans
    (.courtesy h.tail.tail.tail ho)
  simp only [List.append_assoc] at hrun ⊢
  exact hrun

/-- exitAutoMode with its backup, beat by beat (R219, R220, R268). -/
theorem Leads.exitAutoModePersist (h : s.Alone) {p : Params} (hp : p = s.params) {m : Answer}
    (hm : m.value.getLsbD 10 = true) {backup : FlashRun} (hb : backup.possible s.stream.timeout.toNat .backup)
    (hnone : backup.failure .backup = none) {c : Option Nat} (hc : courtesyPossible c) :
    ∃ v', Leads s (modeExitBeats p.readPad m none ++ backup.beats p.readPad .backup ++ courtesyBeats c)
      ⟨op, modeExitActs p (confirmedActs p true todo), [], v, ws, id, ftw⟩ ⟨op, todo, [], v', ws, id, ftw⟩ := by
  obtain ⟨v', hflash⟩ := Leads.flash (op := op) (todo := .enter .courtesy :: todo) (v := m.value) (ws := ws) (id := id)
    (ftw := ftw) (h.along (modeExitBeats p.readPad m none)) (p := p) (by rw [State.along_params, hp]) FlashJob.backup_fits
    (r := backup) (by rwa [State.along_stream]) hnone
  exact ⟨v', ((Leads.modeExit h hp hm).trans hflash).trans (.courtesy (h.along _) hc)⟩

/-- exitAutoMode whose backup fails makes no closing select (R219, R267). -/
theorem Falls.exitAutoModePersist (h : s.Alone) {p : Params} (hp : p = s.params) {m : Answer}
    (hm : m.value.getLsbD 10 = true) {backup : FlashRun} (hb : backup.possible s.stream.timeout.toNat .backup)
    {f : Failure} (hf : backup.failure .backup = some f) :
    ∃ v', Falls s (modeExitBeats p.readPad m none ++ backup.beats p.readPad .backup)
      ⟨op, modeExitActs p (confirmedActs p true todo), [], v, ws, id, ftw⟩ ⟨op, .enter .courtesy :: todo, [], v', ws, id, ftw⟩
      f := by
  obtain ⟨v', hflash⟩ := Falls.flash (op := op) (todo := .enter .courtesy :: todo) (v := m.value) (ws := ws) (id := id)
    (ftw := ftw) (h.along (modeExitBeats p.readPad m none)) (p := p) (by rw [State.along_params, hp]) FlashJob.backup_fits
    (r := backup) (by rwa [State.along_stream]) hf
  exact ⟨v', (Leads.modeExit h hp hm).falls hflash⟩

end

theorem exitAutoMode_op (hi : BitVec 24) (persist : BitVec 1) : opField (encode (.exitAutoMode hi persist)) = 13#4 :=
  Laws.requestWord_op hi persist 13#4

/-- Settles O54. -/
theorem exitAutoModeResult : Obligations.ExitAutoModeResult := by
  refine ⟨fun hi s rest m g d rx hm hg hd => ⟨fun hrx h => ?plain, fun hrx h => ?persist⟩,
    fun hi s m c hm hc => ⟨?plainBeats, fun run hrun => ?persistBeats⟩, fun hi persist s m place hm hk => ?clearFails⟩
  case plain =>
    exact (exec_exitAutoMode hi 0#1 s).trans (congrArg _ (State.request_passes h hrx (exitAutoMode_op hi 0#1) rfl
      (fun hstill ho => ⟨_, BusyRun.exitAutoMode ho hstill hm⟩) (by decide) rfl rfl
      (by simp only [List.length_append]; omega)))
  case persist =>
    rw [List.append_assoc, List.append_assoc] at hrx
    exact (exec_exitAutoMode hi 1#1 s).trans (congrArg _ (State.request_passes h hrx (exitAutoMode_op hi 1#1) rfl
      (fun hstill ho => ⟨_, BusyRun.exitAutoModePersist ho hstill hm hg hd⟩) (by decide) rfl rfl
      (by simp only [List.length_append]; omega)))
  case plainBeats =>
    have hexit := modeExitBeats_length s.params.readPad m none
    have hclose := courtesyBeats_length c
    refine State.completes_outcome (failure := none) (exitAutoMode_op hi 0#1) rfl (exec_exitAutoMode hi 0#1 s)
      (by simp only [List.length_append, tickFuel]; omega) (fun _ u hu hp _ => ?_) nofun
    exact ⟨_, (Leads.modeExit hu hp.symm hm).trans (.courtesy (hu.along _) hc)⟩
  case persistBeats =>
    have hexit := modeExitBeats_length s.params.readPad m none
    have hclose := courtesyBeats_length c
    have hlen := run.beats_length s.params.readPad hrun
    refine State.completes_outcome (exitAutoMode_op hi 1#1) rfl (exec_exitAutoMode hi 1#1 s) ?_
      (fun hnone u hu hp hs => ?_) fun f hf u hu hp hs => ?_
    · split <;> simp only [List.length_append, List.length_nil, tickFuel] <;> omega
    · rw [if_pos hnone]
      exact Leads.exitAutoModePersist hu hp.symm hm (hs ▸ hrun) hnone hc
    · rw [hf, if_neg nofun, List.append_nil]
      obtain ⟨v', hfalls⟩ := Falls.exitAutoModePersist (op := 13#4) (todo := []) (v := 0#16) (ws := []) (id := none)
        (ftw := false) hu hp.symm hm (hs ▸ hrun) hf
      exact ⟨_, hfalls, rfl, rfl⟩
  case clearFails =>
    have hexit := modeExitBeats_length s.params.readPad m (some place)
    refine State.completes_fail (exitAutoMode_op hi persist) (exec_exitAutoMode hi persist s)
      (by simp only [tickFuel]; omega) fun u hu hp _ => ⟨_, Falls.modeExit hu hp.symm hm hk, ?_, rfl⟩
    cases persist == 1#1 <;> rfl

end Sys2Proof.Machine

/-! SUPPORT. FULL_RESET: what comes before its spell, its flash test that ends nothing, its software reset (R224 to R227). -/

namespace Sys2Proof.Machine

/-! ## In a calm state -/

section
variable {s : State} {rest : List Draw} {n : Nat} {tx rx : List Byte} {pend now : Nat}
  {op : BitVec 4} {todo : List Act} {v : Half} {ws : List Half} {id : Option Identity} {ftw : Bool}

/-- The spell of fullReset and the sleep after it, up to its flash test (R224): 17 steps. -/
theorem BusyRun.rebootBegins (h : s.Still rx.length) (ho : s.stream.isOpen = true) :
    BusyRun 17 (s.mid rest (n + 17) tx rx pend now ⟨op, resetSpellActs ++ (.sleep tSettle :: .enter .flashTest :: todo), [], v,
        ws, id, ftw⟩)
      (s.mid rest n (tx ++ [0xFF, 0xFF, 0x0D, 0xFF, 0xFF, 0x0D, 0xFF, 0xFF, 0x0D]) rx 0 (now + 100)
        ⟨op, flashTestActs s.params ++ (.leave .flashTest :: todo), [], v, ws, id, ftw⟩) := by
  have hrun := ((BusyRun.resetSpell (rest := rest) (n := n + 2) (tx := tx) (pend := pend) (now := now) (op := op)
    (todo := .sleep tSettle :: .enter .flashTest :: todo) (buf := []) (v := v) (ws := ws) (id := id) (ftw := ftw) h ho).trans
    (.sleep (n := n + 1) h tSettle)).trans (.enter (n := n) h .flashTest)
  have hguard : guardActs s.params .flashTest ++ todo = flashTestActs s.params ++ (.leave .flashTest :: todo) := by
    simp only [guardActs, List.append_assoc, List.cons_append, List.nil_append]
  rw [List.append_assoc, List.append_assoc, hguard] at hrun
  exact hrun

/-- fullReset from its spell to its softwareReset, its flash test passing (R224): 82 steps. -/
theorem BusyRun.rebootTested (ho : s.stream.isOpen = true) {g d w : Answer}
    (h : s.Still (g.bytes ++ (d.bytes ++ (w.bytes ++ rx))).length) (hg : g.value.getLsbD 10 = false)
    (hd : d.value.getLsbD 2 = false) (hw : w.value.getLsbD 10 = false) :
    BusyRun 82
      (s.mid rest (n + 82) tx (g.bytes ++ (d.bytes ++ (w.bytes ++ rx))) pend now
        ⟨op, resetSpellActs ++ (.sleep tSettle :: .enter .flashTest :: todo), [], v, ws, id, ftw⟩)
      (s.mid rest n (tx ++ ([0xFF, 0xFF, 0x0D, 0xFF, 0xFF, 0x0D, 0xFF, 0xFF, 0x0D] ++ ([0xFE, 0x01, 0x0D, 0x83, 0x08, 0x0D] ++
        s.readBytes 0x01 0x02 ++ s.readBytes 0x00 0x04 ++ s.readBytes 0x01 0x0A))) rx 0 (now + 100)
        ⟨op, todo, [], w.value, ws, id, ftw⟩) := by
  have hrun := ((BusyRun.rebootBegins (rest := rest) (n := n + 65) (tx := tx) (pend := pend) (now := now) (op := op)
    (todo := todo) (v := v) (ws := ws) (id := id) (ftw := ftw) h ho).trans
    (.flashTest (n := n + 1) ho h (maskClear testRunning_eq hg) (maskClear flashErr_eq hd) (maskClear notReady_eq hw))).trans
    (.leave (n := n) h.tail.tail.tail .flashTest)
  rw [List.append_assoc tx] at hrun
  exact hrun

/-- fullReset from its spell to its softwareReset, its flash test failing in its verify: the failure is kept as `ftw` (R226,
R268): 61 steps. -/
theorem BusyRun.rebootWarned (ho : s.stream.isOpen = true) {g d : Answer}
    (h : s.Still (g.bytes ++ (d.bytes ++ rx)).length) (hg : g.value.getLsbD 10 = false) (hd : d.value.getLsbD 2 = true) :
    BusyRun 61
      (s.mid rest (n + 61) tx (g.bytes ++ (d.bytes ++ rx)) pend now
        ⟨op, resetSpellActs ++ (.sleep tSettle :: .enter .flashTest :: todo), [], v, ws, id, ftw⟩)
      (s.mid rest n (tx ++ ([0xFF, 0xFF, 0x0D, 0xFF, 0xFF, 0x0D, 0xFF, 0xFF, 0x0D] ++ ([0xFE, 0x01, 0x0D, 0x83, 0x08, 0x0D] ++
        s.readBytes 0x01 0x02 ++ s.readBytes 0x00 0x04))) rx 0 (now + 100) ⟨op, todo, [], d.value, ws, id, true⟩) := by
  have hverify : ∀ (tx' : List Byte) (now' : Nat), BusyRun 1
      (s.mid rest (n + 1) tx' rx 0 now' ⟨op, .verifyClear flashErr :: .enter .trailingWait :: .leave .flashTest :: todo, [],
        d.value, ws, id, ftw⟩)
      (s.mid rest n tx' rx 0 now' ⟨op, todo, [], d.value, ws, id, true⟩) := fun tx' now' => by
    refine .act h.tail.tail ((if_neg (maskSet flashErr_eq (by decide) hd)).trans ?_)
    simp only [State.failWith, unwind, beq_self_eq_true, Bool.or_true]
    rfl
  have hrun := ((BusyRun.rebootBegins (rest := rest) (n := n + 44) (tx := tx) (pend := pend) (now := now) (op := op)
    (todo := todo) (v := v) (ws := ws) (id := id) (ftw := ftw) h ho).trans
    (.flashTestVerify (n := n + 1) ho h (maskClear testRunning_eq hg))).trans (hverify _ _)
  rw [List.append_assoc tx] at hrun
  exact hrun

/-- The softwareReset of fullReset and its stabilisation sleep (R227): 29 steps. -/
theorem BusyRun.rebootEnds (ho : s.stream.isOpen = true) {q : Answer} (h : s.Still (q.bytes ++ rx).length)
    (hq : q.value.getLsbD 10 = false) :
    BusyRun 29
      (s.mid rest (n + 29) tx (q.bytes ++ rx) pend now ⟨op, softwareResetActs ++ [.sleep tStabilize], [], v, ws, id, ftw⟩)
      (s.mid rest n (tx ++ ([0xFE, 0x01, 0x0D, 0x8A, 0x80, 0x0D] ++ s.readBytes 0x01 0x0A)) rx 0 (now + 800)
        ⟨op, [], [], q.value, ws, id, ftw⟩) :=
  (BusyRun.softwareReset (n := n + 1) ho h (maskClear notReady_eq hq)).trans (.sleep h.tail tStabilize)

/-- FULL_RESET without persist whose flash test fails in its verify, and whose software reset fails at its first byte: 68
steps (R136, R226, R227). -/
theorem BusyRun.softwareResetRefused (ho : s.stream.isOpen = true) {g d : Answer}
    (h : s.Still (g.bytes ++ (d.bytes ++ rx)).length) (hg : g.value.getLsbD 10 = false) (hd : d.value.getLsbD 2 = true) :
    ∃ r, r.op = op ∧ r.ftw = true ∧ BusyRun 68
      (s.mid (Draw.ioFailure :: rest) 67 tx (g.bytes ++ (d.bytes ++ rx)) pend now
        ⟨op, .frame (selectCommand 0#1) winselAddr :: rebootActs, [], v, ws, id, ftw⟩)
      ((s.mid rest 0 (tx ++ (selectCommand 0#1).bytes ++ ([0xFF, 0xFF, 0x0D, 0xFF, 0xFF, 0x0D, 0xFF, 0xFF, 0x0D] ++
        ([0xFE, 0x01, 0x0D, 0x83, 0x08, 0x0D] ++ s.readBytes 0x01 0x02 ++ s.readBytes 0x00 0x04))) rx 0 (now + 100)
        r).completeFail r (.transport .io (some 0xFE))) := by
  have hfails := BusyRun.frameFails (rest := rest) (tx := tx ++ (selectCommand 0#1).bytes ++ ([0xFF, 0xFF, 0x0D, 0xFF, 0xFF,
    0x0D, 0xFF, 0xFF, 0x0D] ++ ([0xFE, 0x01, 0x0D, 0x83, 0x08, 0x0D] ++ s.readBytes 0x01 0x02 ++ s.readBytes 0x00 0x04)))
    (pend := 0) (now := now + 100) (op := op)
    (todo := .frame ⟨0x00, globCmdWrite, swResetValue⟩ globCmdWrite :: (waitUntilReadyActs tReadySwrst ++ [.sleep tStabilize]))
    (buf := []) (v := d.value) (ws := ws) (id := id) (ftw := true) h.tail.tail ho rfl (selectCommand 1#1) winselAddr
    (Nat.zero_le 3)
  rw [List.take_zero, List.append_nil] at hfails
  exact ⟨_, rfl, rfl, ((BusyRun.frame (n := 62) h ho (c := selectCommand 0#1) rfl winselAddr).trans
    (.rebootWarned (n := 1) ho h hg hd)).trans hfails⟩

end

/-! ## Whole requests -/

theorem fullReset_op (hi : BitVec 24) (persist : BitVec 1) : opField (encode (.fullReset hi persist)) = 14#4 :=
  Laws.requestWord_op hi persist 14#4

/-- FULL_RESET without persist, told by its select (R224, R225). -/
theorem exec_fullReset_plain (hi : BitVec 24) (s : State) :
    exec (.fullReset hi 0#1) s = .next (s.request (encode (.fullReset hi 0#1))
      (.frame (selectCommand 0#1) winselAddr :: rebootActs)) := rfl

/-- A FULL_RESET that passes in a calm state reports the warning it has kept (R226). -/
theorem State.request_fullReset {s : State} {q : Word} {todo : List Act} {k n : Nat} {rest : List Draw}
    {rx₀ tx rx sent : List Byte} {now ms : Nat} {warn : Bool} (hready : s.Ready n rest) (hrx : s.rx = rx₀)
    (hq : opField q = 14#4)
    (h : (s.accept q todo).Still rx₀.length → (s.accept q todo).stream.isOpen = true →
      ∃ v, BusyRun k ((s.accept q todo).mid rest n s.tx rx₀ s.txPending s.now ⟨14#4, todo, [], 0#16, [], none, false⟩)
        ((s.accept q todo).mid rest 1 tx rx 0 now ⟨14#4, [], [], v, [], none, warn⟩))
    (hk : k < tickFuel) (htx : tx = s.tx ++ sent) (hnow : now = s.now + ms) (hlen : rx.length ≤ rx₀.length) :
    s.request q todo = (s.exchanged rest sent rx ms).reports q .passed warn := by
  subst hrx htx hnow
  obtain ⟨v, hrun⟩ := h (hready.calm.still q todo) hready.isOpen
  rw [State.request_pass hready.idle hready.calm hq hrun hlen hk, passReport_of_isPlain rfl]
  rfl

/-- A FULL_RESET that fails in a calm state reports the warning it has kept (R226). -/
theorem State.request_fullReset_falls {s : State} {q : Word} {todo : List Act} {k n : Nat} {ds rest : List Draw}
    {rx₀ tx rx sent : List Byte} {now ms : Nat} {warn : Bool} {f : Failure} (hready : s.Ready n ds) (hrx : s.rx = rx₀)
    (hq : opField q = 14#4)
    (h : (s.accept q todo).Still rx₀.length → (s.accept q todo).stream.isOpen = true →
      ∃ r, r.op = 14#4 ∧ r.ftw = warn ∧ BusyRun k
        ((s.accept q todo).mid ds n s.tx rx₀ s.txPending s.now ⟨14#4, todo, [], 0#16, [], none, false⟩)
        (((s.accept q todo).mid rest 0 tx rx 0 now r).completeFail r f))
    (hk : k ≤ tickFuel) (htx : tx = s.tx ++ sent) (hnow : now = s.now + ms) :
    s.request q todo = (s.exchanged rest sent rx ms).reports q (failReport f) warn := by
  subst hrx htx hnow
  obtain ⟨r, hop, hftw, hrun⟩ := h (hready.calm.still q todo) hready.isOpen
  rw [← hq] at hrun
  have hwarn : reportedFtWarn r = warn := by rw [reportedFtWarn, hop, hftw, beq_self_eq_true, Bool.true_and]
  rw [State.request_fail hready.idle hready.calm hrun rfl hk, State.completeFail, hwarn]
  rfl

/-- The beats before the spell of a FULL_RESET lead it there. -/
def LeadsToReboot (s : State) (todo : List Act) (before : List Beat) : Prop :=
  before.length ≤ 200000 ∧ ∀ u : State, u.Alone → u.params = s.params → u.stream = s.stream →
    ∃ v, Leads u before ⟨14#4, todo, [], 0#16, [], none, false⟩ ⟨14#4, rebootActs, [], v, [], none, false⟩

/-- Without persist it is the select of window 0 (R225). -/
theorem leadsToReboot_plain (s : State) :
    LeadsToReboot s (.frame (selectCommand 0#1) winselAddr :: rebootActs) (frameBeats 0xFE 0x00) :=
  ⟨of_decide_eq_true rfl, fun _ hu _ _ => ⟨_, Leads.frame hu (c := selectCommand 0#1) rfl winselAddr⟩⟩

/-- With persist it is exitAutoMode with its backup (R224). -/
theorem leadsToReboot_persist {s : State} {m : Answer} {backup : FlashRun} {c : Option Nat} (hm : m.value.getLsbD 10 = true)
    (hb : backup.possible s.stream.timeout.toNat .backup) (hnone : backup.failure .backup = none) (hc : courtesyPossible c) :
    LeadsToReboot s (modeExitActs s.params (confirmedActs s.params true rebootActs))
      (modeExitBeats s.params.readPad m none ++ backup.beats s.params.readPad .backup ++ courtesyBeats c) := by
  have hexit := modeExitBeats_length s.params.readPad m none
  have hbackup := backup.beats_length s.params.readPad hb
  have hclose := courtesyBeats_length c
  refine ⟨by simp only [List.length_append]; omega, fun u hu hp hs => ?_⟩
  exact Leads.exitAutoModePersist hu hp.symm hm (hs ▸ hb) hnone hc

/-- FULL_RESET passes where its software reset does, with FT_WARN exactly if its flash test failed (R226, R227). -/
theorem LeadsToReboot.completes_pass {s : State} {i : Instr} {todo : List Act} {before : List Beat} {test : TestRun}
    {reset : ResetRun} (h : LeadsToReboot s todo before) (hq : opField (encode i) = 14#4)
    (hx : exec i s = .next (s.request (encode i) todo)) (ht : test.possible s.stream.timeout.toNat)
    (hr : reset.possible s.stream.timeout.toNat) (hnone : reset.failure = none) :
    s.Completes i (before ++ rebootBeats s.params.readPad test reset) .passed test.failure.isSome := by
  have hlen := rebootBeats_length s.params.readPad ht hr
  have hbefore := h.1
  refine State.completes_pass hq hx (by simp only [List.length_append, tickFuel]; omega) rfl fun u hu hp hs => ?_
  obtain ⟨v, hlead⟩ := h.2 u hu hp hs
  obtain ⟨v', hreboot⟩ := Leads.fullReboot (op := 14#4) (todo := []) (v := v) (ws := []) (id := none) (ftw := false)
    (hu.along before) (p := s.params) (by rw [State.along_params, hp]) (t := test) (by rwa [State.along_stream, hs])
    (r := reset) (by rwa [State.along_stream, hs]) hnone
  exact ⟨_, hlead.trans hreboot, rfl, passReport_of_isPlain rfl, rfl⟩

/-- FULL_RESET fails where its software reset does, and keeps FT_WARN (R226, R227). -/
theorem LeadsToReboot.completes_fail {s : State} {i : Instr} {todo : List Act} {before : List Beat} {test : TestRun}
    {reset : ResetRun} {f : Failure} (h : LeadsToReboot s todo before) (hq : opField (encode i) = 14#4)
    (hx : exec i s = .next (s.request (encode i) todo)) (ht : test.possible s.stream.timeout.toNat)
    (hr : reset.possible s.stream.timeout.toNat) (hf : reset.failure = some f) :
    s.Completes i (before ++ rebootBeats s.params.readPad test reset) f.report test.failure.isSome := by
  have hlen := rebootBeats_length s.params.readPad ht hr
  have hbefore := h.1
  refine State.completes_fail hq hx (by simp only [List.length_append, tickFuel]; omega) fun u hu hp hs => ?_
  obtain ⟨v, hlead⟩ := h.2 u hu hp hs
  obtain ⟨v', hreboot⟩ := Falls.fullReboot (op := 14#4) (todo := []) (v := v) (ws := []) (id := none) (ftw := false)
    (hu.along before) (p := s.params) (by rw [State.along_params, hp]) (t := test) (by rwa [State.along_stream, hs])
    (r := reset) (by rwa [State.along_stream, hs]) hf
  exact ⟨_, hlead.falls hreboot, rfl, rfl⟩

/-- A frame of the spell that fails ends FULL_RESET, before its flash test (R136, R170, R226). -/
theorem LeadsToReboot.completes_spellFails {s : State} {i : Instr} {todo : List Act} {before : List Beat} {j k : Nat}
    (h : LeadsToReboot s todo before) (hq : opField (encode i) = 14#4)
    (hx : exec i s = .next (s.request (encode i) todo)) (hj : j ≤ 2) (hk : k ≤ 3) :
    s.Completes i (before ++ spellFailsBeats j k) (.transportFailed .io (some 0xFF)) false := by
  have hlen := spellFailsBeats_length (k := k) hj
  have hbefore := h.1
  refine State.completes_fail (f := .transport .io (some 0xFF)) hq hx (by simp only [List.length_append, tickFuel]; omega)
    fun u hu hp hs => ?_
  obtain ⟨v, hlead⟩ := h.2 u hu hp hs
  exact ⟨_, hlead.falls (.spell (hu.along before) hj hk), rfl, rfl⟩

/-- Settles O56. -/
theorem fullResetWithoutPersist : Obligations.FullResetWithoutPersist := by
  refine ⟨fun hi s rest g d w q rx hg hw hq => ⟨fun hd hrx h => ?passes, fun hd hrx h => ?warned⟩,
    fun hi s test reset ht hr hnone => ?beats, fun hi s j k hj hk => ⟨?selectFails, ?spellFails⟩⟩
  case passes =>
    simp only [List.append_assoc] at hrx
    refine (exec_fullReset_plain hi s).trans (congrArg _ (State.request_fullReset h hrx (fullReset_op hi 0#1)
      (fun hstill ho => ⟨_, ((BusyRun.frame (n := 112) hstill ho (c := selectCommand 0#1) rfl winselAddr).trans
        (.rebootTested ho hstill hg hd hw)).trans (.rebootEnds ho hstill.tail.tail.tail hq)⟩) (by decide) ?_ rfl
      (by simp only [List.length_append]; omega)))
    simp only [List.append_assoc]
    rfl
  case warned =>
    simp only [List.append_assoc] at hrx
    refine (exec_fullReset_plain hi s).trans (congrArg _ (State.request_fullReset h hrx (fullReset_op hi 0#1)
      (fun hstill ho => ⟨_, ((BusyRun.frame (n := 91) hstill ho (c := selectCommand 0#1) rfl winselAddr).trans
        (.rebootWarned ho hstill hg hd)).trans (.rebootEnds ho hstill.tail.tail hq)⟩) (by decide) ?_ rfl
      (by simp only [List.length_append]; omega)))
    simp only [List.append_assoc]
    rfl
  case beats =>
    exact (leadsToReboot_plain s).completes_pass (fullReset_op hi 0#1) (exec_fullReset_plain hi s) ht hr hnone
  case selectFails =>
    refine State.completes_fail (f := .transport .io (some 0xFE)) (fullReset_op hi 0#1) (exec_fullReset_plain hi s) ?_
      fun u hu _ _ => ⟨_, Falls.frame hu (selectCommand 0#1) winselAddr hk, rfl, rfl⟩
    simp only [frameFailsBeats, List.length_append, List.length_cons, List.length_map, List.length_take, List.length_nil,
      tickFuel]
    omega
  case spellFails =>
    exact (leadsToReboot_plain s).completes_spellFails (fullReset_op hi 0#1) (exec_fullReset_plain hi s) hj hk

/-- Settles O57. -/
theorem fullResetWithPersist : Obligations.FullResetWithPersist := by
  refine ⟨fun hi s rest m g d b c w q rx hm hg hd hb hw hq => ⟨fun hc hrx h => ?passes, fun hc hrx h => ?warned⟩,
    fun hi s m backup hm hb => ⟨fun place hk => ?clearFails, fun c j k hnone hc hj hk => ?spellFails, fun f hf => ?backupFails,
      fun c test reset hnone hc ht hr hreset => ?beats⟩⟩
  case passes =>
    simp only [List.append_assoc] at hrx
    refine (exec_fullReset_persist hi s).trans (congrArg _ (State.request_fullReset h hrx (fullReset_op hi 1#1)
      (fun hstill ho => ⟨_, ((BusyRun.exitAutoModePersist (n := 112) ho hstill hm hg hd).trans
        (.rebootTested ho hstill.tail.tail.tail hb hc hw)).trans (.rebootEnds ho hstill.tail.tail.tail.tail.tail.tail hq)⟩)
      (by decide) ?_ rfl (by simp only [List.length_append]; omega)))
    simp only [List.append_assoc]
    rfl
  case warned =>
    simp only [List.append_assoc] at hrx
    refine (exec_fullReset_persist hi s).trans (congrArg _ (State.request_fullReset h hrx (fullReset_op hi 1#1)
      (fun hstill ho => ⟨_, ((BusyRun.exitAutoModePersist (n := 91) ho hstill hm hg hd).trans
        (.rebootWarned ho hstill.tail.tail.tail hb hc)).trans (.rebootEnds ho hstill.tail.tail.tail.tail.tail hq)⟩)
      (by decide) ?_ rfl (by simp only [List.length_append]; omega)))
    simp only [List.append_assoc]
    rfl
  case clearFails =>
    have hexit := modeExitBeats_length s.params.readPad m (some place)
    exact State.completes_fail (fullReset_op hi 1#1) (exec_fullReset_persist hi s) (by simp only [tickFuel]; omega)
      fun u hu hp _ => ⟨_, Falls.modeExit hu hp.symm hm hk, rfl, rfl⟩
  case spellFails =>
    exact (leadsToReboot_persist hm hb hnone hc).completes_spellFails (fullReset_op hi 1#1) (exec_fullReset_persist hi s) hj hk
  case backupFails =>
    have hexit := modeExitBeats_length s.params.readPad m none
    have hbackup := backup.beats_length s.params.readPad hb
    refine State.completes_fail (fullReset_op hi 1#1) (exec_fullReset_persist hi s)
      (by simp only [List.length_append, tickFuel]; omega) fun u hu hp hs => ?_
    obtain ⟨v', hfalls⟩ := Falls.exitAutoModePersist (op := 14#4) (todo := rebootActs) (v := 0#16) (ws := []) (id := none)
      (ftw := false) hu hp.symm hm (hs ▸ hb) hf
    exact ⟨_, hfalls, rfl, rfl⟩
  case beats =>
    exact (leadsToReboot_persist hm hb hnone hc).completes_pass (fullReset_op hi 1#1) (exec_fullReset_persist hi s) ht hr hreset

/-- Settles O58. -/
theorem fullResetFailsWithTheSoftwareReset : Obligations.FullResetFailsWithTheSoftwareReset := by
  refine ⟨fun hi s rest g d rx hg hd hrx h => ?calm, fun hi s test reset f ht hr hf => ⟨?plain, fun m backup c hm hb hnone hc =>
    ?persist⟩⟩
  case plain =>
    exact (leadsToReboot_plain s).completes_fail (fullReset_op hi 0#1) (exec_fullReset_plain hi s) ht hr hf
  case persist =>
    exact (leadsToReboot_persist hm hb hnone hc).completes_fail (fullReset_op hi 1#1) (exec_fullReset_persist hi s) ht hr hf
  case calm =>
    rw [List.append_assoc] at hrx
    refine (exec_fullReset_plain hi s).trans (congrArg _ (State.request_fullReset_falls (f := .transport .io (some 0xFE)) h hrx
      (fullReset_op hi 0#1) (fun hstill ho => BusyRun.softwareResetRefused ho hstill hg hd) (by decide) ?_ rfl))
    simp only [List.append_assoc]
    rfl

end Sys2Proof.Machine
